-- ==== Sys2Proof/Word.lean ====
section
/-!
DEFINITION. Word.lean: the bit patterns the BPF ISA works on, as names for core Lean's `BitVec` (rules R11, R14, R31).
Nothing here is the machine's own: arithmetic, extension and slicing are `BitVec`'s.
-/

namespace Sys2Proof

/-- One byte of memory or of an instruction slot (rule R45). -/
abbrev Byte := BitVec 8

/-- The pattern a general register holds: 64 bits, read as signed or unsigned by the instruction (rule R31). -/
abbrev Word := BitVec 64

/-- The operand and the result of a 32-bit operation (rules R32, R261). -/
abbrev Word32 := BitVec 32

/-- One 64-bit unit of program text. It is written as the number whose bits 8k+7..8k are the byte at offset `k`
from the lowest address of the slot, whatever the byte order of the host (rules R100 to R102). -/
abbrev Slot := BitVec 64

/-- The low 32 bits of a register, `x[i][31:0]` (rule R32). -/
def low32 (w : Word) : Word32 := w.setWidth 32

/-- `zext_64` of a 32-bit pattern: the upper 32 bits are zeroed (rules R17, R32). -/
def zext64 (v : Word32) : Word := v.setWidth 64

/-- `sext_64` of a 32-bit pattern (rule R13). -/
def sext64 (v : Word32) : Word := v.signExtend 64

end Sys2Proof
end

