-- ==== Sys2Proof/Machine/Arith.lean ====
section
/-!
DEFINITION. Machine/Arith.lean: the arithmetic of 40_alu.md and the byte swaps of 41_byteswap.md on operands of `n` bits,
one definition for both widths. Overflow and underflow wrap and leave no trace (rules R42, R150).
-/

namespace Sys2Proof.Machine

/-- `ADD`: modulo 2^n (rule R150). -/
def opAdd {n : Nat} (a b : BitVec n) : BitVec n := a + b

/-- `SUB`: modulo 2^n (rule R150). -/
def opSub {n : Nat} (a b : BitVec n) : BitVec n := a - b

/-- `MUL`: the low `n` bits of the product (rule R167). -/
def opMul {n : Nat} (a b : BitVec n) : BitVec n := a * b

/-- `DIV`: the unsigned quotient; 0 for a zero divisor (rules R153, R155). -/
def opDiv {n : Nat} (a b : BitVec n) : BitVec n := if b = 0#n then 0#n else a / b

/-- `SDIV`: the signed quotient, truncated toward zero and wrapped; 0 for a zero divisor (rules R154, R155, R158). -/
def opSdiv {n : Nat} (a b : BitVec n) : BitVec n := if b = 0#n then 0#n else a.sdiv b

/-- `OR`. -/
def opOr {n : Nat} (a b : BitVec n) : BitVec n := a ||| b

/-- `AND`. -/
def opAnd {n : Nat} (a b : BitVec n) : BitVec n := a &&& b

/-- `XOR`. -/
def opXor {n : Nat} (a b : BitVec n) : BitVec n := a ^^^ b

/-- The shift amount: the low bits of the source operand, `u(b) & (n - 1)` (rule R159). -/
def shiftAmount {n : Nat} (b : BitVec n) : Nat := b.toNat &&& (n - 1)

/-- `LSH` (rule R159). -/
def opLsh {n : Nat} (a b : BitVec n) : BitVec n := a <<< shiftAmount b

/-- `RSH`: fills with zeros (rule R159). -/
def opRsh {n : Nat} (a b : BitVec n) : BitVec n := a >>> shiftAmount b

/-- `ARSH`: fills with the sign bit (rule R159). -/
def opArsh {n : Nat} (a b : BitVec n) : BitVec n := a.sshiftRight (shiftAmount b)

/-- `NEG`: two's complement (rule R160). -/
def opNeg {n : Nat} (a : BitVec n) : BitVec n := -a

/-- `MOD`: the unsigned remainder; the dividend for a zero divisor (rules R153, R156). -/
def opMod {n : Nat} (a b : BitVec n) : BitVec n := if b = 0#n then a else a % b

/-- `SMOD`: the remainder of truncated division; the dividend for a zero divisor (rules R156, R157). -/
def opSmod {n : Nat} (a b : BitVec n) : BitVec n := if b = 0#n then a else a.srem b

/-- The one case in which a signed quotient does not fit: the most negative value divided by -1 (rule R158). -/
def sdivOverflows {n : Nat} (a b : BitVec n) : Bool := a == BitVec.intMin n && b == BitVec.allOnes n

/-- The low `w` bits of a register, sign-extended to `n` bits: the operand of `MOVSX` (rule R161). -/
def signExtendLow (w n : Nat) (v : Word) : BitVec n := (v.setWidth w).signExtend n

/-- `bswap16` (rule R12). -/
def bswap16 (v : BitVec 16) : BitVec 16 := v.extractLsb' 0 8 ++ v.extractLsb' 8 8

/-- `bswap32` (rule R12). -/
def bswap32 (v : BitVec 32) : BitVec 32 :=
  v.extractLsb' 0 8 ++ v.extractLsb' 8 8 ++ v.extractLsb' 16 8 ++ v.extractLsb' 24 8

/-- `bswap64` (rule R12). -/
def bswap64 (v : BitVec 64) : BitVec 64 :=
  v.extractLsb' 0 8 ++ v.extractLsb' 8 8 ++ v.extractLsb' 16 8 ++ v.extractLsb' 24 8 ++ v.extractLsb' 32 8 ++
    v.extractLsb' 40 8 ++ v.extractLsb' 48 8 ++ v.extractLsb' 56 8

end Sys2Proof.Machine
end

