-- ==== Sys2Proof/Machine/Flags.lean ====
section
/-!
DEFINITION. Machine/Flags.lean: the machine has no flags, condition codes or predicate registers (rule R42), so there is
no flag computation; the conditions that a conditional jump computes and uses at once stand here (rule R264). Each is
one definition for both operand widths.
-/

namespace Sys2Proof.Machine

/-- `JEQ` (rule R264). -/
def condEq {n : Nat} (a b : BitVec n) : Bool := a == b

/-- `JGT`: unsigned (rule R264). -/
def condGt {n : Nat} (a b : BitVec n) : Bool := decide (b.toNat < a.toNat)

/-- `JGE`: unsigned (rule R264). -/
def condGe {n : Nat} (a b : BitVec n) : Bool := decide (b.toNat ≤ a.toNat)

/-- `JSET`: some bit is set in both (rule R264). -/
def condSet {n : Nat} (a b : BitVec n) : Bool := a &&& b != 0#n

/-- `JNE` (rule R264). -/
def condNe {n : Nat} (a b : BitVec n) : Bool := a != b

/-- `JSGT`: signed (rule R264). -/
def condSgt {n : Nat} (a b : BitVec n) : Bool := decide (b.toInt < a.toInt)

/-- `JSGE`: signed (rule R264). -/
def condSge {n : Nat} (a b : BitVec n) : Bool := decide (b.toInt ≤ a.toInt)

/-- `JLT`: unsigned (rule R264). -/
def condLt {n : Nat} (a b : BitVec n) : Bool := decide (a.toNat < b.toNat)

/-- `JLE`: unsigned (rule R264). -/
def condLe {n : Nat} (a b : BitVec n) : Bool := decide (a.toNat ≤ b.toNat)

/-- `JSLT`: signed (rule R264). -/
def condSlt {n : Nat} (a b : BitVec n) : Bool := decide (a.toInt < b.toInt)

/-- `JSLE`: signed (rule R264). -/
def condSle {n : Nat} (a b : BitVec n) : Bool := decide (a.toInt ≤ b.toInt)

end Sys2Proof.Machine
end

