-- ==== Sys2Proof/Config.lean ====
section
/-!
DEFINITION. Config.lean: the implementation parameters of rule R10 as plain data, their defaults, and the free values.
An instruction changes none of them (section 0 of 10_state.md); a state carries the parameters it runs under, so that
every statement about the machine is about every choice of them.
-/

namespace Sys2Proof

/-- `HOST_ENDIAN`: the byte order of the host, fixed for a run (rules R10, R60). -/
inductive Endian where
  | little
  | big
deriving DecidableEq, Repr

/-- The seven conformance groups (rule R2). -/
inductive Group where
  | base32
  | base64
  | atomic32
  | atomic64
  | divmul32
  | divmul64
  | packet
deriving DecidableEq, Repr

/-- `ALIGN_POLICY` (rule R64). -/
inductive AlignPolicy where
  | any
  | natural
deriving DecidableEq, Repr

/-- `SDIV_OVERFLOW`: what a signed division of the most negative value by -1 gives (rule R158). -/
inductive SdivOverflow where
  | wrap
  | draw
deriving DecidableEq, Repr

/-- `PACKET`: the semantics of the legacy packet instructions (rule R432). `linux` holds the packet's bytes. -/
inductive PacketMode where
  | unsupported
  | linux (pkt : List Byte)
deriving DecidableEq, Repr

/-- The kind of a data access, the third argument of `Admit` (rule R66). -/
inductive AccessKind where
  | read
  | write
  | atomic
deriving DecidableEq, Repr

/-- One region of data memory that the platform hands to the program: a context, a map's values, a platform variable
(rules R45, R72). It holds the addresses `base` to `base + size - 1`. -/
structure Region where
  base : Nat
  size : Nat
  /-- loads are admitted -/
  readable : Bool
  /-- regular stores are admitted -/
  writable : Bool
  /-- atomic operations are admitted, where loads and regular stores are (rule R371) -/
  atomics : Bool
  /-- other agents may change its bytes between two instructions (rules R80, R81) -/
  shared : Bool
deriving DecidableEq, Repr

/-- Accesses that the platform admits one by one, beside those inside a region: they start at `first` to `last`, have one
of the sizes and one of the kinds. A list of these is any predicate on address, size and kind (rule R66). -/
structure Grant where
  first : Nat
  last : Nat
  sizes : List Nat
  kinds : List AccessKind
deriving DecidableEq, Repr

/-- A value a helper computes from its arguments; `arg k` is the value of register R(k+1) (rule R273). -/
inductive HelperExpr where
  | const (v : Word)
  | arg (k : Fin 5)
  | add (a b : HelperExpr)
deriving DecidableEq, Repr

/-- What a helper's `run` returns: a result for R0 with the bytes it changed (`none`: the byte holds no value any
more), or a fault with the helper's own reason (rule R273). -/
inductive HelperOutcome where
  | returns (r0 : Word) (writes : List (Word × Option Byte))
  | fails (reason : Nat)
deriving DecidableEq, Repr, Inhabited

/-- What a helper's `run` does (rule R273). The source defines no helper, so a helper is one of: a result computed
from the arguments together with bytes it stores; a helper that always fails for a reason of its own; any function of
the argument values and data memory, as a table; or a helper about which nothing is known, `external`, whose outcome is
the free value `Config.helperOutcome`. -/
inductive HelperBody where
  /-- R0 gets `result`; each pair stores the low byte of its second expression at the address of its first -/
  | computed (result : HelperExpr) (stores : List (HelperExpr × HelperExpr))
  | fails (reason : Nat)
  /-- what the first entry for the argument values and the bytes of memory that hold a value says, else `otherwise` -/
  | table (entries : List ((List Word × List (Nat × Byte)) × HelperOutcome)) (otherwise : HelperOutcome)
  | external
deriving DecidableEq, Repr

/-- A helper function: the record `(arity : 0..5, run)` of rule R273. -/
structure Helper where
  arity : Fin 6
  body : HelperBody
deriving DecidableEq, Repr

/-- The two helper tables, with id spaces of their own (rules R271, R272). -/
inductive HelperTable where
  | static
  | btf
deriving DecidableEq, Repr

/-- `ENTRY_REGS`: the values of R1 to R5 at entry, where the platform gives one; no other register may be named
(rules R490, R491). -/
structure EntryRegs where
  r1 : Option Word
  r2 : Option Word
  r3 : Option Word
  r4 : Option Word
  r5 : Option Word
deriving DecidableEq, Repr

/-- The implementation parameters of rule R10. `PROGRAM` is a field of the state. A partial function of the spec is a
finite table here: its first entry for an argument counts, and it is undefined elsewhere. -/
structure Params where
  /-- `HOST_ENDIAN` -/
  hostEndian : Endian
  /-- `GROUPS` -/
  groups : List Group
  /-- `R10_READONLY` -/
  r10ReadOnly : Bool
  /-- `ALIGN_POLICY` -/
  alignPolicy : AlignPolicy
  /-- `SDIV_OVERFLOW` -/
  sdivOverflow : SdivOverflow
  /-- `MAX_CALL_DEPTH` -/
  maxCallDepth : Nat
  /-- `frame_pointer`: entry `d` is the value of R10 at call depth `d` -/
  framePointers : List Word
  /-- `STACK_SIZE` -/
  stackSize : Nat
  /-- `ENTRY_REGS` -/
  entryRegs : EntryRegs
  /-- `MAX_SLOTS`; `none` is unbounded -/
  maxSlots : Option Nat
  /-- `PACKET` -/
  packet : PacketMode
  /-- `HELPERS` -/
  helpers : List (Word32 × Helper)
  /-- `BTF_HELPERS` -/
  btfHelpers : List (Word32 × Helper)
  /-- `map_by_fd` -/
  mapByFd : List (Word32 × Word)
  /-- `map_by_idx` -/
  mapByIdx : List (Word32 × Word)
  /-- `map_val` -/
  mapVal : List (Word × Word)
  /-- `var_addr` -/
  varAddr : List (Word32 × Word)
  /-- `code_addr` -/
  codeAddr : List ((Nat × Word32) × Word)
  /-- the regions that `Admit` admits beside the stack frames -/
  regions : List Region
  /-- what `Admit` admits beside the stack frames and the regions -/
  grants : List Grant
deriving DecidableEq, Repr

/-- All seven groups, the default of `GROUPS` (rule R10). -/
def Group.all : List Group :=
  [.base32, .base64, .atomic32, .atomic64, .divmul32, .divmul64, .packet]

/-- The default `frame_pointer`: `FP0 - STACK_SIZE * d` for depths 0 to `n` (rules R10, R36). -/
def defaultFramePointers (fp0 stackSize : Nat) (n : Nat) : List Word :=
  (List.range (n + 1)).map fun d => BitVec.ofNat 64 (fp0 - stackSize * d)

/-- The defaults of rule R10. `FP0` is given by each vector; 0x8000 is the one the vectors use (DESIGN CHOICE,
assumption 3: unsafe). No entry register, no helper, no platform object, no region beside the stack. -/
def Params.default : Params where
  hostEndian := .little
  groups := Group.all
  r10ReadOnly := true
  alignPolicy := .any
  sdivOverflow := .wrap
  maxCallDepth := 8
  framePointers := defaultFramePointers 0x8000 512 8
  stackSize := 512
  entryRegs := ⟨none, none, none, none, none⟩
  maxSlots := none
  packet := .unsupported
  helpers := []
  btfHelpers := []
  mapByFd := []
  mapByIdx := []
  mapVal := []
  varAddr := []
  codeAddr := []
  regions := []
  grants := []

/-- The value that `SDIV_OVERFLOW` = `draw` draws: any value, one for each draw (rule R158). A free value: it has no
body, so nothing in Lean can prove which value it is (DESIGN CHOICE, assumption 9: safe). -/
opaque Config.drawnWord : Nat → Word

/-- What a helper with body `external` does, as a function of its table, its id, its argument values, the bytes of
data memory that hold a value, and the draw it is called with (rule R273). A free value (DESIGN CHOICE,
assumption 8: safe). -/
opaque Config.helperOutcome : HelperTable → Word32 → List Word → List (Nat × Byte) → Nat → HelperOutcome

end Sys2Proof
end

