-- ==== Sys2Proof/Syntax.lean ====
section
/-!
DEFINITION. Syntax.lean: the general registers and the instructions, one constructor of `Instr` for each row of
spec/opcode_table.json, with the operands that the row leaves free. A field that selects the instruction, or that the
instruction does not use, is no operand (rules R105, R106); `off` is the field 'offset', `imm` the field 'imm' and
`nextImm` the field 'next_imm' of a wide instruction.
-/

namespace Sys2Proof

/-- The eleven general registers R0 to R10 (rule R30). -/
inductive Reg where
  | r0
  | r1
  | r2
  | r3
  | r4
  | r5
  | r6
  | r7
  | r8
  | r9
  | r10
deriving DecidableEq, Repr

/-- The instructions of the BPF ISA (rule R4). -/
inductive Instr where
  /-- `{ADD, K, ALU}`, rule R170 -/
  | aluAddK (dst : Reg) (imm : BitVec 32)
  /-- `{ADD, X, ALU}`, rule R171 -/
  | aluAddX (dst src : Reg)
  /-- `{ADD, K, ALU64}`, rule R172 -/
  | alu64AddK (dst : Reg) (imm : BitVec 32)
  /-- `{ADD, X, ALU64}`, rule R173 -/
  | alu64AddX (dst src : Reg)
  /-- `{SUB, K, ALU}`, rule R174 -/
  | aluSubK (dst : Reg) (imm : BitVec 32)
  /-- `{SUB, X, ALU}`, rule R175 -/
  | aluSubX (dst src : Reg)
  /-- `{SUB, K, ALU64}`, rule R176 -/
  | alu64SubK (dst : Reg) (imm : BitVec 32)
  /-- `{SUB, X, ALU64}`, rule R177 -/
  | alu64SubX (dst src : Reg)
  /-- `{MUL, K, ALU}`, rule R178 -/
  | aluMulK (dst : Reg) (imm : BitVec 32)
  /-- `{MUL, X, ALU}`, rule R179 -/
  | aluMulX (dst src : Reg)
  /-- `{MUL, K, ALU64}`, rule R180 -/
  | alu64MulK (dst : Reg) (imm : BitVec 32)
  /-- `{MUL, X, ALU64}`, rule R181 -/
  | alu64MulX (dst src : Reg)
  /-- `{DIV, K, ALU}`, rule R182 -/
  | aluDivK (dst : Reg) (imm : BitVec 32)
  /-- `{DIV, X, ALU}`, rule R183 -/
  | aluDivX (dst src : Reg)
  /-- `{DIV, K, ALU64}`, rule R184 -/
  | alu64DivK (dst : Reg) (imm : BitVec 32)
  /-- `{DIV, X, ALU64}`, rule R185 -/
  | alu64DivX (dst src : Reg)
  /-- `{SDIV, K, ALU} offset=1`, rule R186 -/
  | aluSdivK (dst : Reg) (imm : BitVec 32)
  /-- `{SDIV, X, ALU} offset=1`, rule R187 -/
  | aluSdivX (dst src : Reg)
  /-- `{SDIV, K, ALU64} offset=1`, rule R188 -/
  | alu64SdivK (dst : Reg) (imm : BitVec 32)
  /-- `{SDIV, X, ALU64} offset=1`, rule R189 -/
  | alu64SdivX (dst src : Reg)
  /-- `{OR, K, ALU}`, rule R190 -/
  | aluOrK (dst : Reg) (imm : BitVec 32)
  /-- `{OR, X, ALU}`, rule R191 -/
  | aluOrX (dst src : Reg)
  /-- `{OR, K, ALU64}`, rule R192 -/
  | alu64OrK (dst : Reg) (imm : BitVec 32)
  /-- `{OR, X, ALU64}`, rule R193 -/
  | alu64OrX (dst src : Reg)
  /-- `{AND, K, ALU}`, rule R194 -/
  | aluAndK (dst : Reg) (imm : BitVec 32)
  /-- `{AND, X, ALU}`, rule R195 -/
  | aluAndX (dst src : Reg)
  /-- `{AND, K, ALU64}`, rule R196 -/
  | alu64AndK (dst : Reg) (imm : BitVec 32)
  /-- `{AND, X, ALU64}`, rule R197 -/
  | alu64AndX (dst src : Reg)
  /-- `{LSH, K, ALU}`, rule R198 -/
  | aluLshK (dst : Reg) (imm : BitVec 32)
  /-- `{LSH, X, ALU}`, rule R199 -/
  | aluLshX (dst src : Reg)
  /-- `{LSH, K, ALU64}`, rule R200 -/
  | alu64LshK (dst : Reg) (imm : BitVec 32)
  /-- `{LSH, X, ALU64}`, rule R201 -/
  | alu64LshX (dst src : Reg)
  /-- `{RSH, K, ALU}`, rule R202 -/
  | aluRshK (dst : Reg) (imm : BitVec 32)
  /-- `{RSH, X, ALU}`, rule R203 -/
  | aluRshX (dst src : Reg)
  /-- `{RSH, K, ALU64}`, rule R204 -/
  | alu64RshK (dst : Reg) (imm : BitVec 32)
  /-- `{RSH, X, ALU64}`, rule R205 -/
  | alu64RshX (dst src : Reg)
  /-- `{NEG, K, ALU}`, rule R206 -/
  | aluNegK (dst : Reg)
  /-- `{NEG, K, ALU64}`, rule R207 -/
  | alu64NegK (dst : Reg)
  /-- `{MOD, K, ALU}`, rule R208 -/
  | aluModK (dst : Reg) (imm : BitVec 32)
  /-- `{MOD, X, ALU}`, rule R209 -/
  | aluModX (dst src : Reg)
  /-- `{MOD, K, ALU64}`, rule R210 -/
  | alu64ModK (dst : Reg) (imm : BitVec 32)
  /-- `{MOD, X, ALU64}`, rule R211 -/
  | alu64ModX (dst src : Reg)
  /-- `{SMOD, K, ALU} offset=1`, rule R212 -/
  | aluSmodK (dst : Reg) (imm : BitVec 32)
  /-- `{SMOD, X, ALU} offset=1`, rule R213 -/
  | aluSmodX (dst src : Reg)
  /-- `{SMOD, K, ALU64} offset=1`, rule R214 -/
  | alu64SmodK (dst : Reg) (imm : BitVec 32)
  /-- `{SMOD, X, ALU64} offset=1`, rule R215 -/
  | alu64SmodX (dst src : Reg)
  /-- `{XOR, K, ALU}`, rule R216 -/
  | aluXorK (dst : Reg) (imm : BitVec 32)
  /-- `{XOR, X, ALU}`, rule R217 -/
  | aluXorX (dst src : Reg)
  /-- `{XOR, K, ALU64}`, rule R218 -/
  | alu64XorK (dst : Reg) (imm : BitVec 32)
  /-- `{XOR, X, ALU64}`, rule R219 -/
  | alu64XorX (dst src : Reg)
  /-- `{MOV, K, ALU}`, rule R220 -/
  | aluMovK (dst : Reg) (imm : BitVec 32)
  /-- `{MOV, X, ALU}`, rule R221 -/
  | aluMovX (dst src : Reg)
  /-- `{MOV, K, ALU64}`, rule R222 -/
  | alu64MovK (dst : Reg) (imm : BitVec 32)
  /-- `{MOV, X, ALU64}`, rule R223 -/
  | alu64MovX (dst src : Reg)
  /-- `{MOVSX, X, ALU} offset=8`, rule R224 -/
  | aluMovsx8X (dst src : Reg)
  /-- `{MOVSX, X, ALU} offset=16`, rule R225 -/
  | aluMovsx16X (dst src : Reg)
  /-- `{MOVSX, X, ALU64} offset=8`, rule R226 -/
  | alu64Movsx8X (dst src : Reg)
  /-- `{MOVSX, X, ALU64} offset=16`, rule R227 -/
  | alu64Movsx16X (dst src : Reg)
  /-- `{MOVSX, X, ALU64} offset=32`, rule R228 -/
  | alu64Movsx32X (dst src : Reg)
  /-- `{ARSH, K, ALU}`, rule R229 -/
  | aluArshK (dst : Reg) (imm : BitVec 32)
  /-- `{ARSH, X, ALU}`, rule R230 -/
  | aluArshX (dst src : Reg)
  /-- `{ARSH, K, ALU64}`, rule R231 -/
  | alu64ArshK (dst : Reg) (imm : BitVec 32)
  /-- `{ARSH, X, ALU64}`, rule R232 -/
  | alu64ArshX (dst src : Reg)
  /-- `{END, TO_LE, ALU} imm=16`, rule R244 -/
  | aluEndToLe16 (dst : Reg)
  /-- `{END, TO_LE, ALU} imm=32`, rule R245 -/
  | aluEndToLe32 (dst : Reg)
  /-- `{END, TO_LE, ALU} imm=64`, rule R246 -/
  | aluEndToLe64 (dst : Reg)
  /-- `{END, TO_BE, ALU} imm=16`, rule R247 -/
  | aluEndToBe16 (dst : Reg)
  /-- `{END, TO_BE, ALU} imm=32`, rule R248 -/
  | aluEndToBe32 (dst : Reg)
  /-- `{END, TO_BE, ALU} imm=64`, rule R249 -/
  | aluEndToBe64 (dst : Reg)
  /-- `{END, TO_LE, ALU64} imm=16`, rule R250 -/
  | alu64EndBswap16 (dst : Reg)
  /-- `{END, TO_LE, ALU64} imm=32`, rule R251 -/
  | alu64EndBswap32 (dst : Reg)
  /-- `{END, TO_LE, ALU64} imm=64`, rule R252 -/
  | alu64EndBswap64 (dst : Reg)
  /-- `{JA, K, JMP}`, rule R280 -/
  | jmpJa (off : BitVec 16)
  /-- `{JA, K, JMP32}`, rule R281 -/
  | jmp32Ja (imm : BitVec 32)
  /-- `{JEQ, K, JMP}`, rule R282 -/
  | jmpJeqK (dst : Reg) (off : BitVec 16) (imm : BitVec 32)
  /-- `{JEQ, X, JMP}`, rule R283 -/
  | jmpJeqX (dst src : Reg) (off : BitVec 16)
  /-- `{JEQ, K, JMP32}`, rule R284 -/
  | jmp32JeqK (dst : Reg) (off : BitVec 16) (imm : BitVec 32)
  /-- `{JEQ, X, JMP32}`, rule R285 -/
  | jmp32JeqX (dst src : Reg) (off : BitVec 16)
  /-- `{JGT, K, JMP}`, rule R286 -/
  | jmpJgtK (dst : Reg) (off : BitVec 16) (imm : BitVec 32)
  /-- `{JGT, X, JMP}`, rule R287 -/
  | jmpJgtX (dst src : Reg) (off : BitVec 16)
  /-- `{JGT, K, JMP32}`, rule R288 -/
  | jmp32JgtK (dst : Reg) (off : BitVec 16) (imm : BitVec 32)
  /-- `{JGT, X, JMP32}`, rule R289 -/
  | jmp32JgtX (dst src : Reg) (off : BitVec 16)
  /-- `{JGE, K, JMP}`, rule R290 -/
  | jmpJgeK (dst : Reg) (off : BitVec 16) (imm : BitVec 32)
  /-- `{JGE, X, JMP}`, rule R291 -/
  | jmpJgeX (dst src : Reg) (off : BitVec 16)
  /-- `{JGE, K, JMP32}`, rule R292 -/
  | jmp32JgeK (dst : Reg) (off : BitVec 16) (imm : BitVec 32)
  /-- `{JGE, X, JMP32}`, rule R293 -/
  | jmp32JgeX (dst src : Reg) (off : BitVec 16)
  /-- `{JSET, K, JMP}`, rule R294 -/
  | jmpJsetK (dst : Reg) (off : BitVec 16) (imm : BitVec 32)
  /-- `{JSET, X, JMP}`, rule R295 -/
  | jmpJsetX (dst src : Reg) (off : BitVec 16)
  /-- `{JSET, K, JMP32}`, rule R296 -/
  | jmp32JsetK (dst : Reg) (off : BitVec 16) (imm : BitVec 32)
  /-- `{JSET, X, JMP32}`, rule R297 -/
  | jmp32JsetX (dst src : Reg) (off : BitVec 16)
  /-- `{JNE, K, JMP}`, rule R298 -/
  | jmpJneK (dst : Reg) (off : BitVec 16) (imm : BitVec 32)
  /-- `{JNE, X, JMP}`, rule R299 -/
  | jmpJneX (dst src : Reg) (off : BitVec 16)
  /-- `{JNE, K, JMP32}`, rule R300 -/
  | jmp32JneK (dst : Reg) (off : BitVec 16) (imm : BitVec 32)
  /-- `{JNE, X, JMP32}`, rule R301 -/
  | jmp32JneX (dst src : Reg) (off : BitVec 16)
  /-- `{JSGT, K, JMP}`, rule R302 -/
  | jmpJsgtK (dst : Reg) (off : BitVec 16) (imm : BitVec 32)
  /-- `{JSGT, X, JMP}`, rule R303 -/
  | jmpJsgtX (dst src : Reg) (off : BitVec 16)
  /-- `{JSGT, K, JMP32}`, rule R304 -/
  | jmp32JsgtK (dst : Reg) (off : BitVec 16) (imm : BitVec 32)
  /-- `{JSGT, X, JMP32}`, rule R305 -/
  | jmp32JsgtX (dst src : Reg) (off : BitVec 16)
  /-- `{JSGE, K, JMP}`, rule R306 -/
  | jmpJsgeK (dst : Reg) (off : BitVec 16) (imm : BitVec 32)
  /-- `{JSGE, X, JMP}`, rule R307 -/
  | jmpJsgeX (dst src : Reg) (off : BitVec 16)
  /-- `{JSGE, K, JMP32}`, rule R308 -/
  | jmp32JsgeK (dst : Reg) (off : BitVec 16) (imm : BitVec 32)
  /-- `{JSGE, X, JMP32}`, rule R309 -/
  | jmp32JsgeX (dst src : Reg) (off : BitVec 16)
  /-- `{JLT, K, JMP}`, rule R310 -/
  | jmpJltK (dst : Reg) (off : BitVec 16) (imm : BitVec 32)
  /-- `{JLT, X, JMP}`, rule R311 -/
  | jmpJltX (dst src : Reg) (off : BitVec 16)
  /-- `{JLT, K, JMP32}`, rule R312 -/
  | jmp32JltK (dst : Reg) (off : BitVec 16) (imm : BitVec 32)
  /-- `{JLT, X, JMP32}`, rule R313 -/
  | jmp32JltX (dst src : Reg) (off : BitVec 16)
  /-- `{JLE, K, JMP}`, rule R314 -/
  | jmpJleK (dst : Reg) (off : BitVec 16) (imm : BitVec 32)
  /-- `{JLE, X, JMP}`, rule R315 -/
  | jmpJleX (dst src : Reg) (off : BitVec 16)
  /-- `{JLE, K, JMP32}`, rule R316 -/
  | jmp32JleK (dst : Reg) (off : BitVec 16) (imm : BitVec 32)
  /-- `{JLE, X, JMP32}`, rule R317 -/
  | jmp32JleX (dst src : Reg) (off : BitVec 16)
  /-- `{JSLT, K, JMP}`, rule R318 -/
  | jmpJsltK (dst : Reg) (off : BitVec 16) (imm : BitVec 32)
  /-- `{JSLT, X, JMP}`, rule R319 -/
  | jmpJsltX (dst src : Reg) (off : BitVec 16)
  /-- `{JSLT, K, JMP32}`, rule R320 -/
  | jmp32JsltK (dst : Reg) (off : BitVec 16) (imm : BitVec 32)
  /-- `{JSLT, X, JMP32}`, rule R321 -/
  | jmp32JsltX (dst src : Reg) (off : BitVec 16)
  /-- `{JSLE, K, JMP}`, rule R322 -/
  | jmpJsleK (dst : Reg) (off : BitVec 16) (imm : BitVec 32)
  /-- `{JSLE, X, JMP}`, rule R323 -/
  | jmpJsleX (dst src : Reg) (off : BitVec 16)
  /-- `{JSLE, K, JMP32}`, rule R324 -/
  | jmp32JsleK (dst : Reg) (off : BitVec 16) (imm : BitVec 32)
  /-- `{JSLE, X, JMP32}`, rule R325 -/
  | jmp32JsleX (dst src : Reg) (off : BitVec 16)
  /-- `{CALL, K, JMP} src_reg=0`, rule R326 -/
  | jmpCallHelper (imm : BitVec 32)
  /-- `{CALL, K, JMP} src_reg=1`, rule R327 -/
  | jmpCallLocal (imm : BitVec 32)
  /-- `{CALL, K, JMP} src_reg=2`, rule R328 -/
  | jmpCallBtf (imm : BitVec 32)
  /-- `{EXIT, K, JMP}`, rule R329 -/
  | jmpExit
  /-- `{MEM, W, LDX}`, rule R350 -/
  | ldxMemW (dst src : Reg) (off : BitVec 16)
  /-- `{MEM, H, LDX}`, rule R351 -/
  | ldxMemH (dst src : Reg) (off : BitVec 16)
  /-- `{MEM, B, LDX}`, rule R352 -/
  | ldxMemB (dst src : Reg) (off : BitVec 16)
  /-- `{MEM, DW, LDX}`, rule R353 -/
  | ldxMemDw (dst src : Reg) (off : BitVec 16)
  /-- `{MEMSX, W, LDX}`, rule R354 -/
  | ldxMemsxW (dst src : Reg) (off : BitVec 16)
  /-- `{MEMSX, H, LDX}`, rule R355 -/
  | ldxMemsxH (dst src : Reg) (off : BitVec 16)
  /-- `{MEMSX, B, LDX}`, rule R356 -/
  | ldxMemsxB (dst src : Reg) (off : BitVec 16)
  /-- `{MEM, W, ST}`, rule R357 -/
  | stMemW (dst : Reg) (off : BitVec 16) (imm : BitVec 32)
  /-- `{MEM, H, ST}`, rule R358 -/
  | stMemH (dst : Reg) (off : BitVec 16) (imm : BitVec 32)
  /-- `{MEM, B, ST}`, rule R359 -/
  | stMemB (dst : Reg) (off : BitVec 16) (imm : BitVec 32)
  /-- `{MEM, DW, ST}`, rule R360 -/
  | stMemDw (dst : Reg) (off : BitVec 16) (imm : BitVec 32)
  /-- `{MEM, W, STX}`, rule R361 -/
  | stxMemW (dst src : Reg) (off : BitVec 16)
  /-- `{MEM, H, STX}`, rule R362 -/
  | stxMemH (dst src : Reg) (off : BitVec 16)
  /-- `{MEM, B, STX}`, rule R363 -/
  | stxMemB (dst src : Reg) (off : BitVec 16)
  /-- `{MEM, DW, STX}`, rule R364 -/
  | stxMemDw (dst src : Reg) (off : BitVec 16)
  /-- `{ATOMIC, W, STX} imm=ADD`, rule R382 -/
  | stxAtomicWAdd (dst src : Reg) (off : BitVec 16)
  /-- `{ATOMIC, DW, STX} imm=ADD`, rule R383 -/
  | stxAtomicDwAdd (dst src : Reg) (off : BitVec 16)
  /-- `{ATOMIC, W, STX} imm=OR`, rule R384 -/
  | stxAtomicWOr (dst src : Reg) (off : BitVec 16)
  /-- `{ATOMIC, DW, STX} imm=OR`, rule R385 -/
  | stxAtomicDwOr (dst src : Reg) (off : BitVec 16)
  /-- `{ATOMIC, W, STX} imm=AND`, rule R386 -/
  | stxAtomicWAnd (dst src : Reg) (off : BitVec 16)
  /-- `{ATOMIC, DW, STX} imm=AND`, rule R387 -/
  | stxAtomicDwAnd (dst src : Reg) (off : BitVec 16)
  /-- `{ATOMIC, W, STX} imm=XOR`, rule R388 -/
  | stxAtomicWXor (dst src : Reg) (off : BitVec 16)
  /-- `{ATOMIC, DW, STX} imm=XOR`, rule R389 -/
  | stxAtomicDwXor (dst src : Reg) (off : BitVec 16)
  /-- `{ATOMIC, W, STX} imm=ADD | FETCH`, rule R390 -/
  | stxAtomicWAddFetch (dst src : Reg) (off : BitVec 16)
  /-- `{ATOMIC, DW, STX} imm=ADD | FETCH`, rule R391 -/
  | stxAtomicDwAddFetch (dst src : Reg) (off : BitVec 16)
  /-- `{ATOMIC, W, STX} imm=OR | FETCH`, rule R392 -/
  | stxAtomicWOrFetch (dst src : Reg) (off : BitVec 16)
  /-- `{ATOMIC, DW, STX} imm=OR | FETCH`, rule R393 -/
  | stxAtomicDwOrFetch (dst src : Reg) (off : BitVec 16)
  /-- `{ATOMIC, W, STX} imm=AND | FETCH`, rule R394 -/
  | stxAtomicWAndFetch (dst src : Reg) (off : BitVec 16)
  /-- `{ATOMIC, DW, STX} imm=AND | FETCH`, rule R395 -/
  | stxAtomicDwAndFetch (dst src : Reg) (off : BitVec 16)
  /-- `{ATOMIC, W, STX} imm=XOR | FETCH`, rule R396 -/
  | stxAtomicWXorFetch (dst src : Reg) (off : BitVec 16)
  /-- `{ATOMIC, DW, STX} imm=XOR | FETCH`, rule R397 -/
  | stxAtomicDwXorFetch (dst src : Reg) (off : BitVec 16)
  /-- `{ATOMIC, W, STX} imm=XCHG`, rule R398 -/
  | stxAtomicWXchg (dst src : Reg) (off : BitVec 16)
  /-- `{ATOMIC, DW, STX} imm=XCHG`, rule R399 -/
  | stxAtomicDwXchg (dst src : Reg) (off : BitVec 16)
  /-- `{ATOMIC, W, STX} imm=CMPXCHG`, rule R400 -/
  | stxAtomicWCmpxchg (dst src : Reg) (off : BitVec 16)
  /-- `{ATOMIC, DW, STX} imm=CMPXCHG`, rule R401 -/
  | stxAtomicDwCmpxchg (dst src : Reg) (off : BitVec 16)
  /-- `{IMM, DW, LD} src_reg=0`, rule R417 -/
  | ldImm64 (dst : Reg) (imm nextImm : BitVec 32)
  /-- `{IMM, DW, LD} src_reg=1`, rule R418 -/
  | ldMapByFd (dst : Reg) (imm : BitVec 32)
  /-- `{IMM, DW, LD} src_reg=2`, rule R419 -/
  | ldMapValByFd (dst : Reg) (imm nextImm : BitVec 32)
  /-- `{IMM, DW, LD} src_reg=3`, rule R420 -/
  | ldVarAddr (dst : Reg) (imm : BitVec 32)
  /-- `{IMM, DW, LD} src_reg=4`, rule R421 -/
  | ldCodeAddr (dst : Reg) (imm : BitVec 32)
  /-- `{IMM, DW, LD} src_reg=5`, rule R422 -/
  | ldMapByIdx (dst : Reg) (imm : BitVec 32)
  /-- `{IMM, DW, LD} src_reg=6`, rule R423 -/
  | ldMapValByIdx (dst : Reg) (imm nextImm : BitVec 32)
  /-- `{ABS, W, LD}`, rule R435 -/
  | ldAbsW (imm : BitVec 32)
  /-- `{ABS, H, LD}`, rule R436 -/
  | ldAbsH (imm : BitVec 32)
  /-- `{ABS, B, LD}`, rule R437 -/
  | ldAbsB (imm : BitVec 32)
  /-- `{IND, W, LD}`, rule R438 -/
  | ldIndW (src : Reg) (imm : BitVec 32)
  /-- `{IND, H, LD}`, rule R439 -/
  | ldIndH (src : Reg) (imm : BitVec 32)
  /-- `{IND, B, LD}`, rule R440 -/
  | ldIndB (src : Reg) (imm : BitVec 32)
deriving DecidableEq, Repr

end Sys2Proof
end

