-- ==== Sys2Proof/Decode.lean ====
section
/-!
DEFINITION. Decode.lean: the two instruction encodings on both host byte orders (30_encoding.md), the decoder, and the
encoder. The decoder is total and rejects by name; every name stands for the one fault `IllegalInstruction` (rule
R456). Table-like definitions that say what a row of spec/opcode_table.json says (its group, the register it writes)
stand here too, because a platform's decoder asks for them (rules R131, R35).
-/

namespace Sys2Proof

/-- Why a slot encodes no instruction that the platform supports (rule R456). -/
inductive DecodeError where
  /-- fewer bytes than a slot are left: only the byte decoder says so -/
  | shortSlot
  /-- 'opcode' is none of the 125 defined bytes (rule R127) -/
  | undefinedOpcode
  /-- a register field that the instruction uses holds 11 to 15 (rule R128) -/
  | registerNumber
  /-- a field that the instruction does not use is not zero (rule R129) -/
  | unusedField
  /-- a field that completes the selection has no defined value (rule R130) -/
  | selector
  /-- the group of the instruction is not supported (rule R131) -/
  | unsupportedGroup
  /-- the low half of the second slot is not zero (rule R133) -/
  | reservedHalf
  /-- a wide instruction without a second slot (rule R134) -/
  | missingSecondSlot
  /-- a write to R10 while it is read-only (rule R35) -/
  | readOnlyR10
deriving DecidableEq, Repr

/-! ### Fields of a slot -/

/-- The fields of one slot (rule R105). -/
structure Fields where
  opcode : BitVec 8
  dst : BitVec 4
  src : BitVec 4
  offset : BitVec 16
  imm : BitVec 32
deriving DecidableEq, Repr

/-- The byte of a slot at offset `k` from its lowest address. -/
def slotByte (s : Slot) (k : Nat) : Byte := s.extractLsb' (8 * k) 8

/-- The slot whose bytes, from the lowest address, are `b0` to `b7`. -/
def slotOfBytes (b0 b1 b2 b3 b4 b5 b6 b7 : Byte) : Slot := b7 ++ b6 ++ b5 ++ b4 ++ b3 ++ b2 ++ b1 ++ b0

/-- The fields of a slot on either host: the nibbles of the 'regs' byte and the bytes of 'offset' and 'imm' stand in
the host's order (rules R101, R102). -/
def Fields.ofSlot (e : Endian) (s : Slot) : Fields :=
  let regs := slotByte s 1
  match e with
  | .little =>
    { opcode := slotByte s 0
      dst := regs.extractLsb' 0 4
      src := regs.extractLsb' 4 4
      offset := slotByte s 3 ++ slotByte s 2
      imm := slotByte s 7 ++ slotByte s 6 ++ slotByte s 5 ++ slotByte s 4 }
  | .big =>
    { opcode := slotByte s 0
      dst := regs.extractLsb' 4 4
      src := regs.extractLsb' 0 4
      offset := slotByte s 2 ++ slotByte s 3
      imm := slotByte s 4 ++ slotByte s 5 ++ slotByte s 6 ++ slotByte s 7 }

/-- The slot that holds the fields on either host (rules R101, R102). -/
def Fields.toSlot (e : Endian) (f : Fields) : Slot :=
  let o (k : Nat) : Byte := f.offset.extractLsb' (8 * k) 8
  let i (k : Nat) : Byte := f.imm.extractLsb' (8 * k) 8
  match e with
  | .little => slotOfBytes f.opcode (f.src ++ f.dst) (o 0) (o 1) (i 0) (i 1) (i 2) (i 3)
  | .big => slotOfBytes f.opcode (f.dst ++ f.src) (o 1) (o 0) (i 3) (i 2) (i 1) (i 0)

/-- The logical word `W` of rule R103, over which spec/opcode_table.json states its matches and masks. -/
def Fields.word (f : Fields) : BitVec 64 := f.imm ++ f.offset ++ f.src ++ f.dst ++ f.opcode

/-- The fields of a logical word (rule R103). -/
def Fields.ofWord (w : BitVec 64) : Fields where
  opcode := w.extractLsb' 0 8
  dst := w.extractLsb' 8 4
  src := w.extractLsb' 12 4
  offset := w.extractLsb' 16 16
  imm := w.extractLsb' 32 32

/-- The slot that starts a wide instruction has 'opcode' 0x18 (rule R112). -/
def isWideOpcode (s : Slot) : Bool := slotByte s 0 == 0x18#8

/-! ### Register numbers -/

/-- The number of a register in a four-bit field (rule R30). -/
def Reg.num : Reg → BitVec 4
  | .r0 => 0
  | .r1 => 1
  | .r2 => 2
  | .r3 => 3
  | .r4 => 4
  | .r5 => 5
  | .r6 => 6
  | .r7 => 7
  | .r8 => 8
  | .r9 => 9
  | .r10 => 10

/-- The register that a field names; 11 to 15 name none (rule R128). -/
def Reg.ofNum (n : BitVec 4) : Option Reg :=
  match n.toNat with
  | 0 => some .r0
  | 1 => some .r1
  | 2 => some .r2
  | 3 => some .r3
  | 4 => some .r4
  | 5 => some .r5
  | 6 => some .r6
  | 7 => some .r7
  | 8 => some .r8
  | 9 => some .r9
  | 10 => some .r10
  | _ => none

/-! ### Forms of an instruction: which fields are operands and which must be zero (rule R129) -/

/-- What decoding answers. -/
abbrev Decoded := Except DecodeError Instr

/-- Continue with the register that a field names (rule R128). -/
def useReg (n : BitVec 4) (k : Reg → Decoded) : Decoded :=
  match Reg.ofNum n with
  | some r => k r
  | none => .error .registerNumber

/-- Continue if the unused fields are zero (rule R129). -/
def requireZero (zero : Bool) (k : Decoded) : Decoded :=
  if zero then k else .error .unusedField

/-- Operands 'dst_reg' and 'imm': 'src_reg' is unused. -/
def formDstImm (f : Fields) (c : Reg → Word32 → Instr) : Decoded :=
  requireZero (f.src == 0) (useReg f.dst fun d => .ok (c d f.imm))

/-- Operands 'dst_reg' and 'src_reg': 'imm' is unused. -/
def formDstSrc (f : Fields) (c : Reg → Reg → Instr) : Decoded :=
  requireZero (f.imm == 0) (useReg f.dst fun d => useReg f.src fun s => .ok (c d s))

/-- Operand 'dst_reg' alone: 'src_reg' is unused, and 'imm' is 0 or a selector read before. -/
def formDst (f : Fields) (c : Reg → Instr) : Decoded :=
  requireZero (f.src == 0) (useReg f.dst fun d => .ok (c d))

/-- Operands 'dst_reg', 'offset' and 'imm': 'src_reg' is unused. -/
def formDstOffImm (f : Fields) (c : Reg → BitVec 16 → Word32 → Instr) : Decoded :=
  requireZero (f.src == 0) (useReg f.dst fun d => .ok (c d f.offset f.imm))

/-- Operands 'dst_reg', 'src_reg' and 'offset'; 'imm' is a selector read before. -/
def formDstSrcOffAnyImm (f : Fields) (c : Reg → Reg → BitVec 16 → Instr) : Decoded :=
  useReg f.dst fun d => useReg f.src fun s => .ok (c d s f.offset)

/-- Operands 'dst_reg', 'src_reg' and 'offset': 'imm' is unused. -/
def formDstSrcOff (f : Fields) (c : Reg → Reg → BitVec 16 → Instr) : Decoded :=
  requireZero (f.imm == 0) (formDstSrcOffAnyImm f c)

/-- The arithmetic instructions but `SDIV`, `SMOD` and `MOVSX` have 'offset' 0 (rule R162). -/
def noOffset (f : Fields) (k : Decoded) : Decoded := requireZero (f.offset == 0) k

/-- `DIV` and `MOD` codes: 'offset' 0 is the unsigned operation, 1 the signed one (rules R121, R130). -/
def selectSigned (f : Fields) (unsigned signed : Decoded) : Decoded :=
  match f.offset.toNat with
  | 0 => unsigned
  | 1 => signed
  | _ => .error .selector

/-- `{MOV, X, ALU}`: 'offset' 0, or the width that `MOVSX` extends (rules R130, R161). -/
def selectMove32 (f : Fields) (mov sx8 sx16 : Decoded) : Decoded :=
  match f.offset.toNat with
  | 0 => mov
  | 8 => sx8
  | 16 => sx16
  | _ => .error .selector

/-- `{MOV, X, ALU64}`: 'offset' 0, or the width that `MOVSX` extends (rules R130, R161). -/
def selectMove64 (f : Fields) (mov sx8 sx16 sx32 : Decoded) : Decoded :=
  match f.offset.toNat with
  | 0 => mov
  | 8 => sx8
  | 16 => sx16
  | 32 => sx32
  | _ => .error .selector

/-- `END`: 'imm' is the width of the swap (rules R130, R241). -/
def selectWidth (f : Fields) (w16 w32 w64 : Decoded) : Decoded :=
  match f.imm.toNat with
  | 16 => w16
  | 32 => w32
  | 64 => w64
  | _ => .error .selector

/-- The ten operations that 'imm' selects for an atomic instruction of one width (rules R125, R372). -/
structure AtomicForms where
  add : Reg → Reg → BitVec 16 → Instr
  or : Reg → Reg → BitVec 16 → Instr
  and : Reg → Reg → BitVec 16 → Instr
  xor : Reg → Reg → BitVec 16 → Instr
  addFetch : Reg → Reg → BitVec 16 → Instr
  orFetch : Reg → Reg → BitVec 16 → Instr
  andFetch : Reg → Reg → BitVec 16 → Instr
  xorFetch : Reg → Reg → BitVec 16 → Instr
  xchg : Reg → Reg → BitVec 16 → Instr
  cmpxchg : Reg → Reg → BitVec 16 → Instr

/-- An atomic instruction: 'imm' selects the operation (rules R125, R130, R372). -/
def formAtomic (f : Fields) (c : AtomicForms) : Decoded :=
  match f.imm.toNat with
  | 0x00 => formDstSrcOffAnyImm f c.add
  | 0x40 => formDstSrcOffAnyImm f c.or
  | 0x50 => formDstSrcOffAnyImm f c.and
  | 0xa0 => formDstSrcOffAnyImm f c.xor
  | 0x01 => formDstSrcOffAnyImm f c.addFetch
  | 0x41 => formDstSrcOffAnyImm f c.orFetch
  | 0x51 => formDstSrcOffAnyImm f c.andFetch
  | 0xa1 => formDstSrcOffAnyImm f c.xorFetch
  | 0xe1 => formDstSrcOffAnyImm f c.xchg
  | 0xf1 => formDstSrcOffAnyImm f c.cmpxchg
  | _ => .error .selector

/-- `CALL`: 'src_reg' selects the kind of function; 'dst_reg' and 'offset' are unused (rules R129, R130, R265). -/
def formCall (f : Fields) : Decoded :=
  requireZero (f.dst == 0 && f.offset == 0)
    (match f.src.toNat with
    | 0 => .ok (.jmpCallHelper f.imm)
    | 1 => .ok (.jmpCallLocal f.imm)
    | 2 => .ok (.jmpCallBtf f.imm)
    | _ => .error .selector)

/-- Legacy `ABS`: 'dst_reg', 'src_reg' and 'offset' are unused (rule R431). -/
def formAbs (f : Fields) (c : Word32 → Instr) : Decoded :=
  requireZero (f.dst == 0 && f.src == 0 && f.offset == 0) (.ok (c f.imm))

/-- Legacy `IND`: 'dst_reg' and 'offset' are unused (rule R431). -/
def formInd (f : Fields) (c : Reg → Word32 → Instr) : Decoded :=
  requireZero (f.dst == 0 && f.offset == 0) (useReg f.src fun s => .ok (c s f.imm))

/-- A wide instruction: 'offset' is unused, 'src_reg' selects the form, the low half of the second slot is zero, and
'next_imm' is an operand or must be zero (rules R104, R129, R130, R133, R134, R412). -/
def formWide (f : Fields) (second : Option Fields) : Decoded :=
  match second with
  | none => .error .missingSecondSlot
  | some g =>
    if g.opcode == 0 && g.dst == 0 && g.src == 0 && g.offset == 0 then
      requireZero (f.offset == 0)
        (match f.src.toNat with
        | 0 => useReg f.dst fun d => .ok (.ldImm64 d f.imm g.imm)
        | 1 => requireZero (g.imm == 0) (useReg f.dst fun d => .ok (.ldMapByFd d f.imm))
        | 2 => useReg f.dst fun d => .ok (.ldMapValByFd d f.imm g.imm)
        | 3 => requireZero (g.imm == 0) (useReg f.dst fun d => .ok (.ldVarAddr d f.imm))
        | 4 => requireZero (g.imm == 0) (useReg f.dst fun d => .ok (.ldCodeAddr d f.imm))
        | 5 => requireZero (g.imm == 0) (useReg f.dst fun d => .ok (.ldMapByIdx d f.imm))
        | 6 => useReg f.dst fun d => .ok (.ldMapValByIdx d f.imm g.imm)
        | _ => .error .selector)
    else .error .reservedHalf

/-! ### The opcode map (rule R120), class by class (rule R107) -/

/-- The atomic instructions of size W (rule R370). -/
def atomicW : AtomicForms where
  add := .stxAtomicWAdd
  or := .stxAtomicWOr
  and := .stxAtomicWAnd
  xor := .stxAtomicWXor
  addFetch := .stxAtomicWAddFetch
  orFetch := .stxAtomicWOrFetch
  andFetch := .stxAtomicWAndFetch
  xorFetch := .stxAtomicWXorFetch
  xchg := .stxAtomicWXchg
  cmpxchg := .stxAtomicWCmpxchg

/-- The atomic instructions of size DW (rule R370). -/
def atomicDw : AtomicForms where
  add := .stxAtomicDwAdd
  or := .stxAtomicDwOr
  and := .stxAtomicDwAnd
  xor := .stxAtomicDwXor
  addFetch := .stxAtomicDwAddFetch
  orFetch := .stxAtomicDwOrFetch
  andFetch := .stxAtomicDwAndFetch
  xorFetch := .stxAtomicDwXorFetch
  xchg := .stxAtomicDwXchg
  cmpxchg := .stxAtomicDwCmpxchg

/-- Class `LD` (rules R107, R120). -/
def decodeLd (f : Fields) (second : Option Fields) : Decoded :=
  match f.opcode.toNat with
  | 0x18 => formWide f second
  | 0x20 => formAbs f .ldAbsW
  | 0x28 => formAbs f .ldAbsH
  | 0x30 => formAbs f .ldAbsB
  | 0x40 => formInd f .ldIndW
  | 0x48 => formInd f .ldIndH
  | 0x50 => formInd f .ldIndB
  | _ => .error .undefinedOpcode

/-- Class `LDX` (rules R107, R120). -/
def decodeLdx (f : Fields) : Decoded :=
  match f.opcode.toNat with
  | 0x61 => formDstSrcOff f .ldxMemW
  | 0x69 => formDstSrcOff f .ldxMemH
  | 0x71 => formDstSrcOff f .ldxMemB
  | 0x79 => formDstSrcOff f .ldxMemDw
  | 0x81 => formDstSrcOff f .ldxMemsxW
  | 0x89 => formDstSrcOff f .ldxMemsxH
  | 0x91 => formDstSrcOff f .ldxMemsxB
  | _ => .error .undefinedOpcode

/-- Class `ST` (rules R107, R120). -/
def decodeSt (f : Fields) : Decoded :=
  match f.opcode.toNat with
  | 0x62 => formDstOffImm f .stMemW
  | 0x6a => formDstOffImm f .stMemH
  | 0x72 => formDstOffImm f .stMemB
  | 0x7a => formDstOffImm f .stMemDw
  | _ => .error .undefinedOpcode

/-- Class `STX` (rules R107, R120). -/
def decodeStx (f : Fields) : Decoded :=
  match f.opcode.toNat with
  | 0x63 => formDstSrcOff f .stxMemW
  | 0x6b => formDstSrcOff f .stxMemH
  | 0x73 => formDstSrcOff f .stxMemB
  | 0x7b => formDstSrcOff f .stxMemDw
  | 0xc3 => formAtomic f atomicW
  | 0xdb => formAtomic f atomicDw
  | _ => .error .undefinedOpcode

/-- Class `ALU` (rules R107, R120). -/
def decodeAlu (f : Fields) : Decoded :=
  match f.opcode.toNat with
  | 0x04 => noOffset f (formDstImm f .aluAddK)
  | 0x0c => noOffset f (formDstSrc f .aluAddX)
  | 0x14 => noOffset f (formDstImm f .aluSubK)
  | 0x1c => noOffset f (formDstSrc f .aluSubX)
  | 0x24 => noOffset f (formDstImm f .aluMulK)
  | 0x2c => noOffset f (formDstSrc f .aluMulX)
  | 0x34 => selectSigned f (formDstImm f .aluDivK) (formDstImm f .aluSdivK)
  | 0x3c => selectSigned f (formDstSrc f .aluDivX) (formDstSrc f .aluSdivX)
  | 0x44 => noOffset f (formDstImm f .aluOrK)
  | 0x4c => noOffset f (formDstSrc f .aluOrX)
  | 0x54 => noOffset f (formDstImm f .aluAndK)
  | 0x5c => noOffset f (formDstSrc f .aluAndX)
  | 0x64 => noOffset f (formDstImm f .aluLshK)
  | 0x6c => noOffset f (formDstSrc f .aluLshX)
  | 0x74 => noOffset f (formDstImm f .aluRshK)
  | 0x7c => noOffset f (formDstSrc f .aluRshX)
  | 0x84 => noOffset f (requireZero (f.imm == 0) (formDst f .aluNegK))
  | 0x94 => selectSigned f (formDstImm f .aluModK) (formDstImm f .aluSmodK)
  | 0x9c => selectSigned f (formDstSrc f .aluModX) (formDstSrc f .aluSmodX)
  | 0xa4 => noOffset f (formDstImm f .aluXorK)
  | 0xac => noOffset f (formDstSrc f .aluXorX)
  | 0xb4 => noOffset f (formDstImm f .aluMovK)
  | 0xbc => selectMove32 f (formDstSrc f .aluMovX) (formDstSrc f .aluMovsx8X) (formDstSrc f .aluMovsx16X)
  | 0xc4 => noOffset f (formDstImm f .aluArshK)
  | 0xcc => noOffset f (formDstSrc f .aluArshX)
  | 0xd4 => noOffset f (selectWidth f (formDst f .aluEndToLe16) (formDst f .aluEndToLe32) (formDst f .aluEndToLe64))
  | 0xdc => noOffset f (selectWidth f (formDst f .aluEndToBe16) (formDst f .aluEndToBe32) (formDst f .aluEndToBe64))
  | _ => .error .undefinedOpcode

/-- Class `JMP` (rules R107, R120). -/
def decodeJmp (f : Fields) : Decoded :=
  match f.opcode.toNat with
  | 0x05 => requireZero (f.dst == 0 && f.src == 0 && f.imm == 0) (.ok (.jmpJa f.offset))
  | 0x15 => formDstOffImm f .jmpJeqK
  | 0x1d => formDstSrcOff f .jmpJeqX
  | 0x25 => formDstOffImm f .jmpJgtK
  | 0x2d => formDstSrcOff f .jmpJgtX
  | 0x35 => formDstOffImm f .jmpJgeK
  | 0x3d => formDstSrcOff f .jmpJgeX
  | 0x45 => formDstOffImm f .jmpJsetK
  | 0x4d => formDstSrcOff f .jmpJsetX
  | 0x55 => formDstOffImm f .jmpJneK
  | 0x5d => formDstSrcOff f .jmpJneX
  | 0x65 => formDstOffImm f .jmpJsgtK
  | 0x6d => formDstSrcOff f .jmpJsgtX
  | 0x75 => formDstOffImm f .jmpJsgeK
  | 0x7d => formDstSrcOff f .jmpJsgeX
  | 0x85 => formCall f
  | 0x95 => requireZero (f.dst == 0 && f.src == 0 && f.offset == 0 && f.imm == 0) (.ok .jmpExit)
  | 0xa5 => formDstOffImm f .jmpJltK
  | 0xad => formDstSrcOff f .jmpJltX
  | 0xb5 => formDstOffImm f .jmpJleK
  | 0xbd => formDstSrcOff f .jmpJleX
  | 0xc5 => formDstOffImm f .jmpJsltK
  | 0xcd => formDstSrcOff f .jmpJsltX
  | 0xd5 => formDstOffImm f .jmpJsleK
  | 0xdd => formDstSrcOff f .jmpJsleX
  | _ => .error .undefinedOpcode

/-- Class `JMP32` (rules R107, R120). -/
def decodeJmp32 (f : Fields) : Decoded :=
  match f.opcode.toNat with
  | 0x06 => requireZero (f.dst == 0 && f.src == 0 && f.offset == 0) (.ok (.jmp32Ja f.imm))
  | 0x16 => formDstOffImm f .jmp32JeqK
  | 0x1e => formDstSrcOff f .jmp32JeqX
  | 0x26 => formDstOffImm f .jmp32JgtK
  | 0x2e => formDstSrcOff f .jmp32JgtX
  | 0x36 => formDstOffImm f .jmp32JgeK
  | 0x3e => formDstSrcOff f .jmp32JgeX
  | 0x46 => formDstOffImm f .jmp32JsetK
  | 0x4e => formDstSrcOff f .jmp32JsetX
  | 0x56 => formDstOffImm f .jmp32JneK
  | 0x5e => formDstSrcOff f .jmp32JneX
  | 0x66 => formDstOffImm f .jmp32JsgtK
  | 0x6e => formDstSrcOff f .jmp32JsgtX
  | 0x76 => formDstOffImm f .jmp32JsgeK
  | 0x7e => formDstSrcOff f .jmp32JsgeX
  | 0xa6 => formDstOffImm f .jmp32JltK
  | 0xae => formDstSrcOff f .jmp32JltX
  | 0xb6 => formDstOffImm f .jmp32JleK
  | 0xbe => formDstSrcOff f .jmp32JleX
  | 0xc6 => formDstOffImm f .jmp32JsltK
  | 0xce => formDstSrcOff f .jmp32JsltX
  | 0xd6 => formDstOffImm f .jmp32JsleK
  | 0xde => formDstSrcOff f .jmp32JsleX
  | _ => .error .undefinedOpcode

/-- Class `ALU64` (rules R107, R120). -/
def decodeAlu64 (f : Fields) : Decoded :=
  match f.opcode.toNat with
  | 0x07 => noOffset f (formDstImm f .alu64AddK)
  | 0x0f => noOffset f (formDstSrc f .alu64AddX)
  | 0x17 => noOffset f (formDstImm f .alu64SubK)
  | 0x1f => noOffset f (formDstSrc f .alu64SubX)
  | 0x27 => noOffset f (formDstImm f .alu64MulK)
  | 0x2f => noOffset f (formDstSrc f .alu64MulX)
  | 0x37 => selectSigned f (formDstImm f .alu64DivK) (formDstImm f .alu64SdivK)
  | 0x3f => selectSigned f (formDstSrc f .alu64DivX) (formDstSrc f .alu64SdivX)
  | 0x47 => noOffset f (formDstImm f .alu64OrK)
  | 0x4f => noOffset f (formDstSrc f .alu64OrX)
  | 0x57 => noOffset f (formDstImm f .alu64AndK)
  | 0x5f => noOffset f (formDstSrc f .alu64AndX)
  | 0x67 => noOffset f (formDstImm f .alu64LshK)
  | 0x6f => noOffset f (formDstSrc f .alu64LshX)
  | 0x77 => noOffset f (formDstImm f .alu64RshK)
  | 0x7f => noOffset f (formDstSrc f .alu64RshX)
  | 0x87 => noOffset f (requireZero (f.imm == 0) (formDst f .alu64NegK))
  | 0x97 => selectSigned f (formDstImm f .alu64ModK) (formDstImm f .alu64SmodK)
  | 0x9f => selectSigned f (formDstSrc f .alu64ModX) (formDstSrc f .alu64SmodX)
  | 0xa7 => noOffset f (formDstImm f .alu64XorK)
  | 0xaf => noOffset f (formDstSrc f .alu64XorX)
  | 0xb7 => noOffset f (formDstImm f .alu64MovK)
  | 0xbf => selectMove64 f (formDstSrc f .alu64MovX) (formDstSrc f .alu64Movsx8X) (formDstSrc f .alu64Movsx16X) (formDstSrc f .alu64Movsx32X)
  | 0xc7 => noOffset f (formDstImm f .alu64ArshK)
  | 0xcf => noOffset f (formDstSrc f .alu64ArshX)
  | 0xd7 => noOffset f (selectWidth f (formDst f .alu64EndBswap16) (formDst f .alu64EndBswap32) (formDst f .alu64EndBswap64))
  | _ => .error .undefinedOpcode

/-- The instruction that the fields of a slot encode, with those of the slot after it, whatever the platform
supports: the row search of `Decode` (rules R103, R113). -/
def decodeFields (f : Fields) (second : Option Fields) : Decoded :=
  match (f.opcode &&& 7#8).toNat with
  | 0 => decodeLd f second
  | 1 => decodeLdx f
  | 2 => decodeSt f
  | 3 => decodeStx f
  | 4 => decodeAlu f
  | 5 => decodeJmp f
  | 6 => decodeJmp32 f
  | _ => decodeAlu64 f

/-! ### What the platform supports -/

/-- The conformance group of an instruction (rule R3). -/
def Instr.group : Instr → Group
  | .aluAddK _ _ => .base32
  | .aluAddX _ _ => .base32
  | .alu64AddK _ _ => .base64
  | .alu64AddX _ _ => .base64
  | .aluSubK _ _ => .base32
  | .aluSubX _ _ => .base32
  | .alu64SubK _ _ => .base64
  | .alu64SubX _ _ => .base64
  | .aluMulK _ _ => .divmul32
  | .aluMulX _ _ => .divmul32
  | .alu64MulK _ _ => .divmul64
  | .alu64MulX _ _ => .divmul64
  | .aluDivK _ _ => .divmul32
  | .aluDivX _ _ => .divmul32
  | .alu64DivK _ _ => .divmul64
  | .alu64DivX _ _ => .divmul64
  | .aluSdivK _ _ => .divmul32
  | .aluSdivX _ _ => .divmul32
  | .alu64SdivK _ _ => .divmul64
  | .alu64SdivX _ _ => .divmul64
  | .aluOrK _ _ => .base32
  | .aluOrX _ _ => .base32
  | .alu64OrK _ _ => .base64
  | .alu64OrX _ _ => .base64
  | .aluAndK _ _ => .base32
  | .aluAndX _ _ => .base32
  | .alu64AndK _ _ => .base64
  | .alu64AndX _ _ => .base64
  | .aluLshK _ _ => .base32
  | .aluLshX _ _ => .base32
  | .alu64LshK _ _ => .base64
  | .alu64LshX _ _ => .base64
  | .aluRshK _ _ => .base32
  | .aluRshX _ _ => .base32
  | .alu64RshK _ _ => .base64
  | .alu64RshX _ _ => .base64
  | .aluNegK _ => .base32
  | .alu64NegK _ => .base64
  | .aluModK _ _ => .divmul32
  | .aluModX _ _ => .divmul32
  | .alu64ModK _ _ => .divmul64
  | .alu64ModX _ _ => .divmul64
  | .aluSmodK _ _ => .divmul32
  | .aluSmodX _ _ => .divmul32
  | .alu64SmodK _ _ => .divmul64
  | .alu64SmodX _ _ => .divmul64
  | .aluXorK _ _ => .base32
  | .aluXorX _ _ => .base32
  | .alu64XorK _ _ => .base64
  | .alu64XorX _ _ => .base64
  | .aluMovK _ _ => .base32
  | .aluMovX _ _ => .base32
  | .alu64MovK _ _ => .base64
  | .alu64MovX _ _ => .base64
  | .aluMovsx8X _ _ => .base32
  | .aluMovsx16X _ _ => .base32
  | .alu64Movsx8X _ _ => .base64
  | .alu64Movsx16X _ _ => .base64
  | .alu64Movsx32X _ _ => .base64
  | .aluArshK _ _ => .base32
  | .aluArshX _ _ => .base32
  | .alu64ArshK _ _ => .base64
  | .alu64ArshX _ _ => .base64
  | .aluEndToLe16 _ => .base32
  | .aluEndToLe32 _ => .base32
  | .aluEndToLe64 _ => .base64
  | .aluEndToBe16 _ => .base32
  | .aluEndToBe32 _ => .base32
  | .aluEndToBe64 _ => .base64
  | .alu64EndBswap16 _ => .base32
  | .alu64EndBswap32 _ => .base32
  | .alu64EndBswap64 _ => .base64
  | .jmpJa _ => .base32
  | .jmp32Ja _ => .base32
  | .jmpJeqK _ _ _ => .base64
  | .jmpJeqX _ _ _ => .base64
  | .jmp32JeqK _ _ _ => .base32
  | .jmp32JeqX _ _ _ => .base32
  | .jmpJgtK _ _ _ => .base64
  | .jmpJgtX _ _ _ => .base64
  | .jmp32JgtK _ _ _ => .base32
  | .jmp32JgtX _ _ _ => .base32
  | .jmpJgeK _ _ _ => .base64
  | .jmpJgeX _ _ _ => .base64
  | .jmp32JgeK _ _ _ => .base32
  | .jmp32JgeX _ _ _ => .base32
  | .jmpJsetK _ _ _ => .base64
  | .jmpJsetX _ _ _ => .base64
  | .jmp32JsetK _ _ _ => .base32
  | .jmp32JsetX _ _ _ => .base32
  | .jmpJneK _ _ _ => .base64
  | .jmpJneX _ _ _ => .base64
  | .jmp32JneK _ _ _ => .base32
  | .jmp32JneX _ _ _ => .base32
  | .jmpJsgtK _ _ _ => .base64
  | .jmpJsgtX _ _ _ => .base64
  | .jmp32JsgtK _ _ _ => .base32
  | .jmp32JsgtX _ _ _ => .base32
  | .jmpJsgeK _ _ _ => .base64
  | .jmpJsgeX _ _ _ => .base64
  | .jmp32JsgeK _ _ _ => .base32
  | .jmp32JsgeX _ _ _ => .base32
  | .jmpJltK _ _ _ => .base64
  | .jmpJltX _ _ _ => .base64
  | .jmp32JltK _ _ _ => .base32
  | .jmp32JltX _ _ _ => .base32
  | .jmpJleK _ _ _ => .base64
  | .jmpJleX _ _ _ => .base64
  | .jmp32JleK _ _ _ => .base32
  | .jmp32JleX _ _ _ => .base32
  | .jmpJsltK _ _ _ => .base64
  | .jmpJsltX _ _ _ => .base64
  | .jmp32JsltK _ _ _ => .base32
  | .jmp32JsltX _ _ _ => .base32
  | .jmpJsleK _ _ _ => .base64
  | .jmpJsleX _ _ _ => .base64
  | .jmp32JsleK _ _ _ => .base32
  | .jmp32JsleX _ _ _ => .base32
  | .jmpCallHelper _ => .base32
  | .jmpCallLocal _ => .base32
  | .jmpCallBtf _ => .base32
  | .jmpExit => .base32
  | .ldxMemW _ _ _ => .base32
  | .ldxMemH _ _ _ => .base32
  | .ldxMemB _ _ _ => .base32
  | .ldxMemDw _ _ _ => .base64
  | .ldxMemsxW _ _ _ => .base32
  | .ldxMemsxH _ _ _ => .base32
  | .ldxMemsxB _ _ _ => .base32
  | .stMemW _ _ _ => .base32
  | .stMemH _ _ _ => .base32
  | .stMemB _ _ _ => .base32
  | .stMemDw _ _ _ => .base64
  | .stxMemW _ _ _ => .base32
  | .stxMemH _ _ _ => .base32
  | .stxMemB _ _ _ => .base32
  | .stxMemDw _ _ _ => .base64
  | .stxAtomicWAdd _ _ _ => .atomic32
  | .stxAtomicDwAdd _ _ _ => .atomic64
  | .stxAtomicWOr _ _ _ => .atomic32
  | .stxAtomicDwOr _ _ _ => .atomic64
  | .stxAtomicWAnd _ _ _ => .atomic32
  | .stxAtomicDwAnd _ _ _ => .atomic64
  | .stxAtomicWXor _ _ _ => .atomic32
  | .stxAtomicDwXor _ _ _ => .atomic64
  | .stxAtomicWAddFetch _ _ _ => .atomic32
  | .stxAtomicDwAddFetch _ _ _ => .atomic64
  | .stxAtomicWOrFetch _ _ _ => .atomic32
  | .stxAtomicDwOrFetch _ _ _ => .atomic64
  | .stxAtomicWAndFetch _ _ _ => .atomic32
  | .stxAtomicDwAndFetch _ _ _ => .atomic64
  | .stxAtomicWXorFetch _ _ _ => .atomic32
  | .stxAtomicDwXorFetch _ _ _ => .atomic64
  | .stxAtomicWXchg _ _ _ => .atomic32
  | .stxAtomicDwXchg _ _ _ => .atomic64
  | .stxAtomicWCmpxchg _ _ _ => .atomic32
  | .stxAtomicDwCmpxchg _ _ _ => .atomic64
  | .ldImm64 _ _ _ => .base64
  | .ldMapByFd _ _ => .base64
  | .ldMapValByFd _ _ _ => .base64
  | .ldVarAddr _ _ => .base64
  | .ldCodeAddr _ _ => .base64
  | .ldMapByIdx _ _ => .base64
  | .ldMapValByIdx _ _ _ => .base64
  | .ldAbsW _ => .packet
  | .ldAbsH _ => .packet
  | .ldAbsB _ => .packet
  | .ldIndW _ _ => .packet
  | .ldIndH _ _ => .packet
  | .ldIndB _ _ => .packet

/-- The register that an instruction's operands make it write: the ones of rule R35. The implicit destination R0 of
`CMPXCHG`, `CALL` and the packet instructions is not one. -/
def Instr.writtenReg : Instr → Option Reg
  | .aluAddK dst _ => some dst
  | .aluAddX dst _ => some dst
  | .alu64AddK dst _ => some dst
  | .alu64AddX dst _ => some dst
  | .aluSubK dst _ => some dst
  | .aluSubX dst _ => some dst
  | .alu64SubK dst _ => some dst
  | .alu64SubX dst _ => some dst
  | .aluMulK dst _ => some dst
  | .aluMulX dst _ => some dst
  | .alu64MulK dst _ => some dst
  | .alu64MulX dst _ => some dst
  | .aluDivK dst _ => some dst
  | .aluDivX dst _ => some dst
  | .alu64DivK dst _ => some dst
  | .alu64DivX dst _ => some dst
  | .aluSdivK dst _ => some dst
  | .aluSdivX dst _ => some dst
  | .alu64SdivK dst _ => some dst
  | .alu64SdivX dst _ => some dst
  | .aluOrK dst _ => some dst
  | .aluOrX dst _ => some dst
  | .alu64OrK dst _ => some dst
  | .alu64OrX dst _ => some dst
  | .aluAndK dst _ => some dst
  | .aluAndX dst _ => some dst
  | .alu64AndK dst _ => some dst
  | .alu64AndX dst _ => some dst
  | .aluLshK dst _ => some dst
  | .aluLshX dst _ => some dst
  | .alu64LshK dst _ => some dst
  | .alu64LshX dst _ => some dst
  | .aluRshK dst _ => some dst
  | .aluRshX dst _ => some dst
  | .alu64RshK dst _ => some dst
  | .alu64RshX dst _ => some dst
  | .aluNegK dst => some dst
  | .alu64NegK dst => some dst
  | .aluModK dst _ => some dst
  | .aluModX dst _ => some dst
  | .alu64ModK dst _ => some dst
  | .alu64ModX dst _ => some dst
  | .aluSmodK dst _ => some dst
  | .aluSmodX dst _ => some dst
  | .alu64SmodK dst _ => some dst
  | .alu64SmodX dst _ => some dst
  | .aluXorK dst _ => some dst
  | .aluXorX dst _ => some dst
  | .alu64XorK dst _ => some dst
  | .alu64XorX dst _ => some dst
  | .aluMovK dst _ => some dst
  | .aluMovX dst _ => some dst
  | .alu64MovK dst _ => some dst
  | .alu64MovX dst _ => some dst
  | .aluMovsx8X dst _ => some dst
  | .aluMovsx16X dst _ => some dst
  | .alu64Movsx8X dst _ => some dst
  | .alu64Movsx16X dst _ => some dst
  | .alu64Movsx32X dst _ => some dst
  | .aluArshK dst _ => some dst
  | .aluArshX dst _ => some dst
  | .alu64ArshK dst _ => some dst
  | .alu64ArshX dst _ => some dst
  | .aluEndToLe16 dst => some dst
  | .aluEndToLe32 dst => some dst
  | .aluEndToLe64 dst => some dst
  | .aluEndToBe16 dst => some dst
  | .aluEndToBe32 dst => some dst
  | .aluEndToBe64 dst => some dst
  | .alu64EndBswap16 dst => some dst
  | .alu64EndBswap32 dst => some dst
  | .alu64EndBswap64 dst => some dst
  | .jmpJa _ => none
  | .jmp32Ja _ => none
  | .jmpJeqK _ _ _ => none
  | .jmpJeqX _ _ _ => none
  | .jmp32JeqK _ _ _ => none
  | .jmp32JeqX _ _ _ => none
  | .jmpJgtK _ _ _ => none
  | .jmpJgtX _ _ _ => none
  | .jmp32JgtK _ _ _ => none
  | .jmp32JgtX _ _ _ => none
  | .jmpJgeK _ _ _ => none
  | .jmpJgeX _ _ _ => none
  | .jmp32JgeK _ _ _ => none
  | .jmp32JgeX _ _ _ => none
  | .jmpJsetK _ _ _ => none
  | .jmpJsetX _ _ _ => none
  | .jmp32JsetK _ _ _ => none
  | .jmp32JsetX _ _ _ => none
  | .jmpJneK _ _ _ => none
  | .jmpJneX _ _ _ => none
  | .jmp32JneK _ _ _ => none
  | .jmp32JneX _ _ _ => none
  | .jmpJsgtK _ _ _ => none
  | .jmpJsgtX _ _ _ => none
  | .jmp32JsgtK _ _ _ => none
  | .jmp32JsgtX _ _ _ => none
  | .jmpJsgeK _ _ _ => none
  | .jmpJsgeX _ _ _ => none
  | .jmp32JsgeK _ _ _ => none
  | .jmp32JsgeX _ _ _ => none
  | .jmpJltK _ _ _ => none
  | .jmpJltX _ _ _ => none
  | .jmp32JltK _ _ _ => none
  | .jmp32JltX _ _ _ => none
  | .jmpJleK _ _ _ => none
  | .jmpJleX _ _ _ => none
  | .jmp32JleK _ _ _ => none
  | .jmp32JleX _ _ _ => none
  | .jmpJsltK _ _ _ => none
  | .jmpJsltX _ _ _ => none
  | .jmp32JsltK _ _ _ => none
  | .jmp32JsltX _ _ _ => none
  | .jmpJsleK _ _ _ => none
  | .jmpJsleX _ _ _ => none
  | .jmp32JsleK _ _ _ => none
  | .jmp32JsleX _ _ _ => none
  | .jmpCallHelper _ => none
  | .jmpCallLocal _ => none
  | .jmpCallBtf _ => none
  | .jmpExit => none
  | .ldxMemW dst _ _ => some dst
  | .ldxMemH dst _ _ => some dst
  | .ldxMemB dst _ _ => some dst
  | .ldxMemDw dst _ _ => some dst
  | .ldxMemsxW dst _ _ => some dst
  | .ldxMemsxH dst _ _ => some dst
  | .ldxMemsxB dst _ _ => some dst
  | .stMemW _ _ _ => none
  | .stMemH _ _ _ => none
  | .stMemB _ _ _ => none
  | .stMemDw _ _ _ => none
  | .stxMemW _ _ _ => none
  | .stxMemH _ _ _ => none
  | .stxMemB _ _ _ => none
  | .stxMemDw _ _ _ => none
  | .stxAtomicWAdd _ _ _ => none
  | .stxAtomicDwAdd _ _ _ => none
  | .stxAtomicWOr _ _ _ => none
  | .stxAtomicDwOr _ _ _ => none
  | .stxAtomicWAnd _ _ _ => none
  | .stxAtomicDwAnd _ _ _ => none
  | .stxAtomicWXor _ _ _ => none
  | .stxAtomicDwXor _ _ _ => none
  | .stxAtomicWAddFetch _ src _ => some src
  | .stxAtomicDwAddFetch _ src _ => some src
  | .stxAtomicWOrFetch _ src _ => some src
  | .stxAtomicDwOrFetch _ src _ => some src
  | .stxAtomicWAndFetch _ src _ => some src
  | .stxAtomicDwAndFetch _ src _ => some src
  | .stxAtomicWXorFetch _ src _ => some src
  | .stxAtomicDwXorFetch _ src _ => some src
  | .stxAtomicWXchg _ src _ => some src
  | .stxAtomicDwXchg _ src _ => some src
  | .stxAtomicWCmpxchg _ _ _ => none
  | .stxAtomicDwCmpxchg _ _ _ => none
  | .ldImm64 dst _ _ => some dst
  | .ldMapByFd dst _ => some dst
  | .ldMapValByFd dst _ _ => some dst
  | .ldVarAddr dst _ => some dst
  | .ldCodeAddr dst _ => some dst
  | .ldMapByIdx dst _ => some dst
  | .ldMapValByIdx dst _ _ => some dst
  | .ldAbsW _ => none
  | .ldAbsH _ => none
  | .ldAbsB _ => none
  | .ldIndW _ _ => none
  | .ldIndH _ _ => none
  | .ldIndB _ _ => none

/-- The platform supports a group: `base32` always belongs to `GROUPS` of a platform that may run (rules R2, R131). -/
def Params.supports (p : Params) (g : Group) : Bool := p.groups.contains g

/-- The checks of `Decode` that depend on the platform: the group, then a write to R10 (rules R131, R35). -/
def platformCheck (p : Params) (i : Instr) : Decoded :=
  if p.supports i.group then
    if p.r10ReadOnly && i.writtenReg == some .r10 then .error .readOnlyR10 else .ok i
  else .error .unsupportedGroup

/-- `Decode` of a slot and the one after it, when the slot is there and is no second slot (rule R113). -/
def decode (p : Params) (first : Slot) (second : Option Slot) : Decoded :=
  match decodeFields (.ofSlot p.hostEndian first) (second.map (.ofSlot p.hostEndian)) with
  | .error e => .error e
  | .ok i => platformCheck p i

/-- How many slots an instruction fills (rules R100, R112). -/
def Instr.length : Instr → Nat
  | .ldImm64 .. | .ldMapByFd .. | .ldMapValByFd .. | .ldVarAddr .. | .ldCodeAddr .. | .ldMapByIdx ..
  | .ldMapValByIdx .. => 2
  | _ => 1

/-- The slot made of eight bytes, and the bytes after them. -/
def takeSlot : List Byte → Option (Slot × List Byte)
  | b0 :: b1 :: b2 :: b3 :: b4 :: b5 :: b6 :: b7 :: rest => some (slotOfBytes b0 b1 b2 b3 b4 b5 b6 b7, rest)
  | _ => none

/-- The instruction that a list of bytes begins with, as the hardware stores it, and the bytes after it. -/
def decodeBytes (p : Params) (bs : List Byte) : Except DecodeError (Instr × List Byte) :=
  match takeSlot bs with
  | none => .error .shortSlot
  | some (first, rest) =>
    match takeSlot rest with
    | none =>
      match decode p first none with
      | .error e => .error e
      | .ok i => .ok (i, rest)
    | some (second, rest') =>
      match decode p first (some second) with
      | .error e => .error e
      | .ok i => .ok (i, if i.length = 2 then rest' else rest)

/-! ### The encoder -/

/-- The fields of an instruction with operands 'dst_reg' and 'imm'. -/
def fieldsDstImm (opcode : BitVec 8) (selSrc : BitVec 4) (selOff : BitVec 16) (d : Reg) (imm : Word32) : Fields :=
  ⟨opcode, d.num, selSrc, selOff, imm⟩

/-- The fields of an instruction with operands 'dst_reg' and 'src_reg'. -/
def fieldsDstSrc (opcode : BitVec 8) (selOff : BitVec 16) (d s : Reg) : Fields :=
  ⟨opcode, d.num, s.num, selOff, 0⟩

/-- The fields of an instruction with operand 'dst_reg' alone. -/
def fieldsDst (opcode : BitVec 8) (selImm : Word32) (d : Reg) : Fields :=
  ⟨opcode, d.num, 0, 0, selImm⟩

/-- The fields of an instruction with operands 'dst_reg', 'offset' and 'imm'. -/
def fieldsDstOffImm (opcode : BitVec 8) (d : Reg) (off : BitVec 16) (imm : Word32) : Fields :=
  ⟨opcode, d.num, 0, off, imm⟩

/-- The fields of an instruction with operands 'dst_reg', 'src_reg' and 'offset'. -/
def fieldsDstSrcOff (opcode : BitVec 8) (selImm : Word32) (d s : Reg) (off : BitVec 16) : Fields :=
  ⟨opcode, d.num, s.num, off, selImm⟩

/-- The fields of an instruction with operand 'imm' alone. -/
def fieldsImm (opcode : BitVec 8) (selSrc : BitVec 4) (imm : Word32) : Fields :=
  ⟨opcode, 0, selSrc, 0, imm⟩

/-- The fields of an instruction's (first) slot (rules R105, R108, R109, R121, R122, R125). -/
def Instr.fields : Instr → Fields
  | .aluAddK d imm => fieldsDstImm 0x04#8 0 0 d imm
  | .aluAddX d s => fieldsDstSrc 0x0c#8 0 d s
  | .alu64AddK d imm => fieldsDstImm 0x07#8 0 0 d imm
  | .alu64AddX d s => fieldsDstSrc 0x0f#8 0 d s
  | .aluSubK d imm => fieldsDstImm 0x14#8 0 0 d imm
  | .aluSubX d s => fieldsDstSrc 0x1c#8 0 d s
  | .alu64SubK d imm => fieldsDstImm 0x17#8 0 0 d imm
  | .alu64SubX d s => fieldsDstSrc 0x1f#8 0 d s
  | .aluMulK d imm => fieldsDstImm 0x24#8 0 0 d imm
  | .aluMulX d s => fieldsDstSrc 0x2c#8 0 d s
  | .alu64MulK d imm => fieldsDstImm 0x27#8 0 0 d imm
  | .alu64MulX d s => fieldsDstSrc 0x2f#8 0 d s
  | .aluDivK d imm => fieldsDstImm 0x34#8 0 0 d imm
  | .aluDivX d s => fieldsDstSrc 0x3c#8 0 d s
  | .alu64DivK d imm => fieldsDstImm 0x37#8 0 0 d imm
  | .alu64DivX d s => fieldsDstSrc 0x3f#8 0 d s
  | .aluSdivK d imm => fieldsDstImm 0x34#8 0 1 d imm
  | .aluSdivX d s => fieldsDstSrc 0x3c#8 1 d s
  | .alu64SdivK d imm => fieldsDstImm 0x37#8 0 1 d imm
  | .alu64SdivX d s => fieldsDstSrc 0x3f#8 1 d s
  | .aluOrK d imm => fieldsDstImm 0x44#8 0 0 d imm
  | .aluOrX d s => fieldsDstSrc 0x4c#8 0 d s
  | .alu64OrK d imm => fieldsDstImm 0x47#8 0 0 d imm
  | .alu64OrX d s => fieldsDstSrc 0x4f#8 0 d s
  | .aluAndK d imm => fieldsDstImm 0x54#8 0 0 d imm
  | .aluAndX d s => fieldsDstSrc 0x5c#8 0 d s
  | .alu64AndK d imm => fieldsDstImm 0x57#8 0 0 d imm
  | .alu64AndX d s => fieldsDstSrc 0x5f#8 0 d s
  | .aluLshK d imm => fieldsDstImm 0x64#8 0 0 d imm
  | .aluLshX d s => fieldsDstSrc 0x6c#8 0 d s
  | .alu64LshK d imm => fieldsDstImm 0x67#8 0 0 d imm
  | .alu64LshX d s => fieldsDstSrc 0x6f#8 0 d s
  | .aluRshK d imm => fieldsDstImm 0x74#8 0 0 d imm
  | .aluRshX d s => fieldsDstSrc 0x7c#8 0 d s
  | .alu64RshK d imm => fieldsDstImm 0x77#8 0 0 d imm
  | .alu64RshX d s => fieldsDstSrc 0x7f#8 0 d s
  | .aluNegK d => fieldsDst 0x84#8 0 d
  | .alu64NegK d => fieldsDst 0x87#8 0 d
  | .aluModK d imm => fieldsDstImm 0x94#8 0 0 d imm
  | .aluModX d s => fieldsDstSrc 0x9c#8 0 d s
  | .alu64ModK d imm => fieldsDstImm 0x97#8 0 0 d imm
  | .alu64ModX d s => fieldsDstSrc 0x9f#8 0 d s
  | .aluSmodK d imm => fieldsDstImm 0x94#8 0 1 d imm
  | .aluSmodX d s => fieldsDstSrc 0x9c#8 1 d s
  | .alu64SmodK d imm => fieldsDstImm 0x97#8 0 1 d imm
  | .alu64SmodX d s => fieldsDstSrc 0x9f#8 1 d s
  | .aluXorK d imm => fieldsDstImm 0xa4#8 0 0 d imm
  | .aluXorX d s => fieldsDstSrc 0xac#8 0 d s
  | .alu64XorK d imm => fieldsDstImm 0xa7#8 0 0 d imm
  | .alu64XorX d s => fieldsDstSrc 0xaf#8 0 d s
  | .aluMovK d imm => fieldsDstImm 0xb4#8 0 0 d imm
  | .aluMovX d s => fieldsDstSrc 0xbc#8 0 d s
  | .alu64MovK d imm => fieldsDstImm 0xb7#8 0 0 d imm
  | .alu64MovX d s => fieldsDstSrc 0xbf#8 0 d s
  | .aluMovsx8X d s => fieldsDstSrc 0xbc#8 8 d s
  | .aluMovsx16X d s => fieldsDstSrc 0xbc#8 16 d s
  | .alu64Movsx8X d s => fieldsDstSrc 0xbf#8 8 d s
  | .alu64Movsx16X d s => fieldsDstSrc 0xbf#8 16 d s
  | .alu64Movsx32X d s => fieldsDstSrc 0xbf#8 32 d s
  | .aluArshK d imm => fieldsDstImm 0xc4#8 0 0 d imm
  | .aluArshX d s => fieldsDstSrc 0xcc#8 0 d s
  | .alu64ArshK d imm => fieldsDstImm 0xc7#8 0 0 d imm
  | .alu64ArshX d s => fieldsDstSrc 0xcf#8 0 d s
  | .aluEndToLe16 d => fieldsDst 0xd4#8 16 d
  | .aluEndToLe32 d => fieldsDst 0xd4#8 32 d
  | .aluEndToLe64 d => fieldsDst 0xd4#8 64 d
  | .aluEndToBe16 d => fieldsDst 0xdc#8 16 d
  | .aluEndToBe32 d => fieldsDst 0xdc#8 32 d
  | .aluEndToBe64 d => fieldsDst 0xdc#8 64 d
  | .alu64EndBswap16 d => fieldsDst 0xd7#8 16 d
  | .alu64EndBswap32 d => fieldsDst 0xd7#8 32 d
  | .alu64EndBswap64 d => fieldsDst 0xd7#8 64 d
  | .jmpJa off => ⟨0x05#8, 0, 0, off, 0⟩
  | .jmp32Ja imm => fieldsImm 0x06#8 0 imm
  | .jmpJeqK d off imm => fieldsDstOffImm 0x15#8 d off imm
  | .jmpJeqX d s off => fieldsDstSrcOff 0x1d#8 0x00 d s off
  | .jmp32JeqK d off imm => fieldsDstOffImm 0x16#8 d off imm
  | .jmp32JeqX d s off => fieldsDstSrcOff 0x1e#8 0x00 d s off
  | .jmpJgtK d off imm => fieldsDstOffImm 0x25#8 d off imm
  | .jmpJgtX d s off => fieldsDstSrcOff 0x2d#8 0x00 d s off
  | .jmp32JgtK d off imm => fieldsDstOffImm 0x26#8 d off imm
  | .jmp32JgtX d s off => fieldsDstSrcOff 0x2e#8 0x00 d s off
  | .jmpJgeK d off imm => fieldsDstOffImm 0x35#8 d off imm
  | .jmpJgeX d s off => fieldsDstSrcOff 0x3d#8 0x00 d s off
  | .jmp32JgeK d off imm => fieldsDstOffImm 0x36#8 d off imm
  | .jmp32JgeX d s off => fieldsDstSrcOff 0x3e#8 0x00 d s off
  | .jmpJsetK d off imm => fieldsDstOffImm 0x45#8 d off imm
  | .jmpJsetX d s off => fieldsDstSrcOff 0x4d#8 0x00 d s off
  | .jmp32JsetK d off imm => fieldsDstOffImm 0x46#8 d off imm
  | .jmp32JsetX d s off => fieldsDstSrcOff 0x4e#8 0x00 d s off
  | .jmpJneK d off imm => fieldsDstOffImm 0x55#8 d off imm
  | .jmpJneX d s off => fieldsDstSrcOff 0x5d#8 0x00 d s off
  | .jmp32JneK d off imm => fieldsDstOffImm 0x56#8 d off imm
  | .jmp32JneX d s off => fieldsDstSrcOff 0x5e#8 0x00 d s off
  | .jmpJsgtK d off imm => fieldsDstOffImm 0x65#8 d off imm
  | .jmpJsgtX d s off => fieldsDstSrcOff 0x6d#8 0x00 d s off
  | .jmp32JsgtK d off imm => fieldsDstOffImm 0x66#8 d off imm
  | .jmp32JsgtX d s off => fieldsDstSrcOff 0x6e#8 0x00 d s off
  | .jmpJsgeK d off imm => fieldsDstOffImm 0x75#8 d off imm
  | .jmpJsgeX d s off => fieldsDstSrcOff 0x7d#8 0x00 d s off
  | .jmp32JsgeK d off imm => fieldsDstOffImm 0x76#8 d off imm
  | .jmp32JsgeX d s off => fieldsDstSrcOff 0x7e#8 0x00 d s off
  | .jmpJltK d off imm => fieldsDstOffImm 0xa5#8 d off imm
  | .jmpJltX d s off => fieldsDstSrcOff 0xad#8 0x00 d s off
  | .jmp32JltK d off imm => fieldsDstOffImm 0xa6#8 d off imm
  | .jmp32JltX d s off => fieldsDstSrcOff 0xae#8 0x00 d s off
  | .jmpJleK d off imm => fieldsDstOffImm 0xb5#8 d off imm
  | .jmpJleX d s off => fieldsDstSrcOff 0xbd#8 0x00 d s off
  | .jmp32JleK d off imm => fieldsDstOffImm 0xb6#8 d off imm
  | .jmp32JleX d s off => fieldsDstSrcOff 0xbe#8 0x00 d s off
  | .jmpJsltK d off imm => fieldsDstOffImm 0xc5#8 d off imm
  | .jmpJsltX d s off => fieldsDstSrcOff 0xcd#8 0x00 d s off
  | .jmp32JsltK d off imm => fieldsDstOffImm 0xc6#8 d off imm
  | .jmp32JsltX d s off => fieldsDstSrcOff 0xce#8 0x00 d s off
  | .jmpJsleK d off imm => fieldsDstOffImm 0xd5#8 d off imm
  | .jmpJsleX d s off => fieldsDstSrcOff 0xdd#8 0x00 d s off
  | .jmp32JsleK d off imm => fieldsDstOffImm 0xd6#8 d off imm
  | .jmp32JsleX d s off => fieldsDstSrcOff 0xde#8 0x00 d s off
  | .jmpCallHelper imm => fieldsImm 0x85#8 0 imm
  | .jmpCallLocal imm => fieldsImm 0x85#8 1 imm
  | .jmpCallBtf imm => fieldsImm 0x85#8 2 imm
  | .jmpExit => ⟨0x95#8, 0, 0, 0, 0⟩
  | .ldxMemW d s off => fieldsDstSrcOff 0x61#8 0x00 d s off
  | .ldxMemH d s off => fieldsDstSrcOff 0x69#8 0x00 d s off
  | .ldxMemB d s off => fieldsDstSrcOff 0x71#8 0x00 d s off
  | .ldxMemDw d s off => fieldsDstSrcOff 0x79#8 0x00 d s off
  | .ldxMemsxW d s off => fieldsDstSrcOff 0x81#8 0x00 d s off
  | .ldxMemsxH d s off => fieldsDstSrcOff 0x89#8 0x00 d s off
  | .ldxMemsxB d s off => fieldsDstSrcOff 0x91#8 0x00 d s off
  | .stMemW d off imm => fieldsDstOffImm 0x62#8 d off imm
  | .stMemH d off imm => fieldsDstOffImm 0x6a#8 d off imm
  | .stMemB d off imm => fieldsDstOffImm 0x72#8 d off imm
  | .stMemDw d off imm => fieldsDstOffImm 0x7a#8 d off imm
  | .stxMemW d s off => fieldsDstSrcOff 0x63#8 0x00 d s off
  | .stxMemH d s off => fieldsDstSrcOff 0x6b#8 0x00 d s off
  | .stxMemB d s off => fieldsDstSrcOff 0x73#8 0x00 d s off
  | .stxMemDw d s off => fieldsDstSrcOff 0x7b#8 0x00 d s off
  | .stxAtomicWAdd d s off => fieldsDstSrcOff 0xc3#8 0x00 d s off
  | .stxAtomicDwAdd d s off => fieldsDstSrcOff 0xdb#8 0x00 d s off
  | .stxAtomicWOr d s off => fieldsDstSrcOff 0xc3#8 0x40 d s off
  | .stxAtomicDwOr d s off => fieldsDstSrcOff 0xdb#8 0x40 d s off
  | .stxAtomicWAnd d s off => fieldsDstSrcOff 0xc3#8 0x50 d s off
  | .stxAtomicDwAnd d s off => fieldsDstSrcOff 0xdb#8 0x50 d s off
  | .stxAtomicWXor d s off => fieldsDstSrcOff 0xc3#8 0xa0 d s off
  | .stxAtomicDwXor d s off => fieldsDstSrcOff 0xdb#8 0xa0 d s off
  | .stxAtomicWAddFetch d s off => fieldsDstSrcOff 0xc3#8 0x01 d s off
  | .stxAtomicDwAddFetch d s off => fieldsDstSrcOff 0xdb#8 0x01 d s off
  | .stxAtomicWOrFetch d s off => fieldsDstSrcOff 0xc3#8 0x41 d s off
  | .stxAtomicDwOrFetch d s off => fieldsDstSrcOff 0xdb#8 0x41 d s off
  | .stxAtomicWAndFetch d s off => fieldsDstSrcOff 0xc3#8 0x51 d s off
  | .stxAtomicDwAndFetch d s off => fieldsDstSrcOff 0xdb#8 0x51 d s off
  | .stxAtomicWXorFetch d s off => fieldsDstSrcOff 0xc3#8 0xa1 d s off
  | .stxAtomicDwXorFetch d s off => fieldsDstSrcOff 0xdb#8 0xa1 d s off
  | .stxAtomicWXchg d s off => fieldsDstSrcOff 0xc3#8 0xe1 d s off
  | .stxAtomicDwXchg d s off => fieldsDstSrcOff 0xdb#8 0xe1 d s off
  | .stxAtomicWCmpxchg d s off => fieldsDstSrcOff 0xc3#8 0xf1 d s off
  | .stxAtomicDwCmpxchg d s off => fieldsDstSrcOff 0xdb#8 0xf1 d s off
  | .ldImm64 d imm _ => fieldsDstImm 0x18#8 0 0 d imm
  | .ldMapByFd d imm => fieldsDstImm 0x18#8 1 0 d imm
  | .ldMapValByFd d imm _ => fieldsDstImm 0x18#8 2 0 d imm
  | .ldVarAddr d imm => fieldsDstImm 0x18#8 3 0 d imm
  | .ldCodeAddr d imm => fieldsDstImm 0x18#8 4 0 d imm
  | .ldMapByIdx d imm => fieldsDstImm 0x18#8 5 0 d imm
  | .ldMapValByIdx d imm _ => fieldsDstImm 0x18#8 6 0 d imm
  | .ldAbsW imm => fieldsImm 0x20#8 0 imm
  | .ldAbsH imm => fieldsImm 0x28#8 0 imm
  | .ldAbsB imm => fieldsImm 0x30#8 0 imm
  | .ldIndW s imm => ⟨0x40#8, 0, s.num, 0, imm⟩
  | .ldIndH s imm => ⟨0x48#8, 0, s.num, 0, imm⟩
  | .ldIndB s imm => ⟨0x50#8, 0, s.num, 0, imm⟩

/-- The 'next_imm' of a wide instruction's second slot; `none` for a basic instruction (rules R104, R412). -/
def Instr.nextImm : Instr → Option Word32
  | .ldImm64 _ _ n | .ldMapValByFd _ _ n | .ldMapValByIdx _ _ n => some n
  | .ldMapByFd .. | .ldVarAddr .. | .ldCodeAddr .. | .ldMapByIdx .. => some 0
  | _ => none

/-- The fields of the second slot that holds a 'next_imm': everything else is zero (rule R104). -/
def secondFields (next : Word32) : Fields := ⟨0, 0, 0, 0, next⟩

/-- The slots of an instruction on either host (rules R100 to R104). -/
def encode (e : Endian) (i : Instr) : List Slot :=
  match i.nextImm with
  | none => [i.fields.toSlot e]
  | some n => [i.fields.toSlot e, (secondFields n).toSlot e]

/-- The bytes of a slot, from its lowest address. -/
def Slot.bytes (s : Slot) : List Byte :=
  [slotByte s 0, slotByte s 1, slotByte s 2, slotByte s 3, slotByte s 4, slotByte s 5, slotByte s 6, slotByte s 7]

/-- The bytes of an instruction on either host, from its lowest address. -/
def encodeBytes (e : Endian) (i : Instr) : List Byte := (encode e i).flatMap Slot.bytes

/-! ### Words as spec/opcode_table.json numbers them -/

/-- The first slot of a table word: its bits 63..0 are the logical word `W` (rule R103). -/
def tableFirst (e : Endian) (nbits w : Nat) : Slot :=
  (Fields.ofWord (BitVec.ofNat 64 (w % 2 ^ nbits))).toSlot e

/-- The second slot of a table word: its bits 127..64 are the logical word `W2` (rule R103). -/
def tableSecond (e : Endian) (nbits w : Nat) : Slot :=
  (Fields.ofWord (BitVec.ofNat 64 (w % 2 ^ nbits / 2 ^ 64))).toSlot e

/-- The instruction that the decoder of the default platform reads from the bits `w` of a table row, laid out as the
host stores them. -/
def decodeTableWord (nbits w : Nat) : Option Instr :=
  let e := Params.default.hostEndian
  match decodeBytes Params.default (Slot.bytes (tableFirst e nbits w) ++ Slot.bytes (tableSecond e nbits w)) with
  | .error _ => none
  | .ok (i, _) => some i

end Sys2Proof
end

