-- ==== Sys2Proof/Machine/Platform.lean ====
section
/-!
DEFINITION. Machine/Platform.lean: what the parameters of rule R10 say of stack frames, data memory and the platform
functions. Everything here reads `Params` and a call depth only; no state.
-/

namespace Sys2Proof

/-- The value that a table gives to an argument; `none` where the partial function is undefined (rule R414). -/
def lookupTable {α β : Type} [DecidableEq α] : List (α × β) → α → Option β
  | [], _ => none
  | (k, v) :: rest, a => if k = a then some v else lookupTable rest a

/-- `frame_pointer(d)`: the value of R10 at call depth `d` (rule R36). -/
def Params.framePointer (p : Params) (d : Nat) : Word := p.framePointers.getD d 0

/-- The address after the last byte of the stack frame at depth `d` (rule R36). -/
def Params.frameTop (p : Params) (d : Nat) : Nat := (p.framePointer d).toNat

/-- The address of the first byte of the stack frame at depth `d`: `STACK_SIZE` bytes below its R10 (rule R36). -/
def Params.frameBase (p : Params) (d : Nat) : Nat := p.frameTop d - p.stackSize

/-- The `n` bytes at `a` lie wholly inside the stack frame at depth `d` (rule R67). -/
def Params.insideFrame (p : Params) (d a n : Nat) : Bool := decide (p.frameBase d ≤ a) && decide (a + n ≤ p.frameTop d)

/-- The `n` bytes at `a` have a byte in common with the stack frame at depth `d`. -/
def Params.touchesFrame (p : Params) (d a n : Nat) : Bool :=
  decide (p.frameBase d < a + n) && decide (a < p.frameTop d) && decide (p.frameBase d < p.frameTop d) && decide (0 < n)

/-- The `n` bytes at `a` lie wholly inside one frame that is live at call depth `d`: the function's own or one of its
callers' (rule R67). -/
def Params.insideLiveFrame (p : Params) (d a n : Nat) : Bool := (List.range (d + 1)).any fun e => p.insideFrame e a n

/-- The `n` bytes at `a` touch a frame that is dead at call depth `d`: one of a greater depth (rules R66, R67). -/
def Params.touchesDeadFrame (p : Params) (d a n : Nat) : Bool :=
  (List.range (p.maxCallDepth + 1)).any fun e => decide (d < e) && p.touchesFrame e a n

/-- The kinds of access that a region admits. -/
def Region.permits (r : Region) : AccessKind → Bool
  | .read => r.readable
  | .write => r.writable
  | .atomic => r.atomics

/-- The `n` bytes at `a` lie wholly inside a region. -/
def Region.contains (r : Region) (a n : Nat) : Bool := decide (r.base ≤ a) && decide (a + n ≤ r.base + r.size)

/-- The alignment that an access needs: an atomic operation always natural alignment, any other access only under
`ALIGN_POLICY` = `natural` (rules R64, R373). -/
def Params.aligned (p : Params) (a n : Nat) (kind : AccessKind) : Bool :=
  if kind = .atomic ∨ p.alignPolicy = .natural then a % n == 0 else true

/-- An access that is granted on its own. -/
def Grant.covers (g : Grant) (a n : Nat) (kind : AccessKind) : Bool :=
  decide (g.first ≤ a) && decide (a ≤ g.last) && g.sizes.contains n && g.kinds.contains kind

/-- The `n` bytes at `a` overlap program text: the slot at one of the code addresses that the platform gives out (rules
R41, R66, R421). -/
def Params.touchesCode (p : Params) (a n : Nat) : Bool :=
  p.codeAddr.any fun e => decide (e.2.toNat < a + n) && decide (a < e.2.toNat + 8)

/-- What the platform lets a program access, apart from what no platform may: the live stack frames (rule R67), the
regions, and what is granted on its own. -/
def Params.allows (p : Params) (d a n : Nat) (kind : AccessKind) : Bool :=
  p.insideLiveFrame d a n || (p.regions.any fun r => r.permits kind && r.contains a n) ||
    p.grants.any fun g => g.covers a n kind

/-- `Admit(addr, n, kind)` at call depth `d` (rules R66, R67, R371, R421): what the platform allows, as far as the access
does not wrap, is aligned where it must be, and touches neither a dead stack frame nor program text; an access admitted
for atomics is one allowed for reads and writes too. The call stack has no data address (rule R40). That the platform's
part is a list of regions and grants is assumption 5 (DESIGN CHOICE: safe). -/
def Params.admits (p : Params) (d : Nat) (addr : Word) (n : Nat) (kind : AccessKind) : Bool :=
  decide (addr.toNat + n ≤ 2 ^ 64) && p.aligned addr.toNat n kind && !p.touchesDeadFrame d addr.toNat n &&
    !p.touchesCode addr.toNat n && p.allows d addr.toNat n kind &&
    (decide (kind ≠ .atomic) || p.allows d addr.toNat n .read && p.allows d addr.toNat n .write)

/-- A byte of a shared region, which other agents may change between two instructions (rules R80, R81). -/
def Params.sharedByte (p : Params) (a : Nat) : Bool := p.regions.any fun r => r.shared && r.contains a 1

/-- A byte of the stack: of a frame at some depth (rule R36). -/
def Params.stackByte (p : Params) (a : Nat) : Bool :=
  (List.range (p.maxCallDepth + 1)).any fun e => p.touchesFrame e a 1

/-- `HELPERS` or `BTF_HELPERS` (rules R271, R272). -/
def Params.helperTable (p : Params) : HelperTable → List (Word32 × Helper)
  | .static => p.helpers
  | .btf => p.btfHelpers

end Sys2Proof
end

