-- ==== Sys2Proof/Machine/State.lean ====
section
/-!
DEFINITION. Machine/State.lean: the state of the machine (section 0 of 10_state.md) as plain data, the faults, and the
state a run starts in.
-/

namespace Sys2Proof.Machine

/-- The general registers R0 to R10 (rule R30). `none` is the spec's own `UNWRITTEN`: the register holds no value
(rule R33). -/
structure Regs where
  r0 : Option Word
  r1 : Option Word
  r2 : Option Word
  r3 : Option Word
  r4 : Option Word
  r5 : Option Word
  r6 : Option Word
  r7 : Option Word
  r8 : Option Word
  r9 : Option Word
  r10 : Option Word
deriving DecidableEq, Repr

/-- What a program-local call saves: the return slot and R6 to R10, each perhaps unwritten (rules R40, R276). -/
structure Frame where
  ret : Nat
  r6 : Option Word
  r7 : Option Word
  r8 : Option Word
  r9 : Option Word
  r10 : Option Word
deriving DecidableEq, Repr

/-- Data memory (rule R45): the bytes that hold a value, addresses strictly rising. An address that is not listed holds
no value (rule R68; assumption 4: safe). -/
abbrev Memory := List Host.Cell

/-- The eleven faults with their recorded values (rule R451). -/
inductive FaultReason where
  /-- a step started with the program counter outside the program (rule R455) -/
  | fetchOutOfRange (i : Nat)
  /-- a jump, a call or the program counter reached the second slot of a wide instruction (rule R459) -/
  | jumpIntoWide (t : Nat)
  /-- the target of a taken jump or call is outside the program (rule R459) -/
  | jumpOutOfRange (t : Int)
  /-- the slot does not decode to an instruction that the platform supports (rule R456) -/
  | illegalInstruction (pc : Nat)
  /-- a register that holds no value was read (rule R457) -/
  | uninitRegister (i : Reg)
  /-- `Admit` refused the access (rule R458) -/
  | memoryAccessFault (addr : Word) (n : Nat) (kind : AccessKind)
  /-- a read covered a byte that holds no value (rule R458) -/
  | uninitMemory (addr : Word)
  /-- a program-local call at depth `MAX_CALL_DEPTH` (rule R460) -/
  | callDepthExceeded
  /-- the helper table has no entry for the id (rule R461) -/
  | unknownHelper (id : Word32)
  /-- the helper's own definition failed (rule R461) -/
  | helperFault (id : Word32) (reason : Nat)
  /-- a platform function is undefined on its argument, or `PACKET` = `unsupported` (rule R462) -/
  | platformUnsupported (pc : Nat)
deriving DecidableEq, Repr

/-- The status of the machine (rule R46). -/
inductive Status where
  | running
  | halted (result : Word)
  | faulted (reason : FaultReason)
deriving DecidableEq, Repr

/-- The state of the machine, with the program and the parameters it runs under. -/
structure State where
  /-- `x` (rule R30) -/
  regs : Regs
  /-- `pc`, in slots, without bound (rule R38) -/
  pc : Nat
  /-- `frames`, the newest first (rule R40) -/
  frames : List Frame
  /-- `mem` (rule R45) -/
  mem : Memory
  /-- `status` (rule R46) -/
  status : Status
  /-- `PROGRAM` (rule R41): no instruction changes it -/
  program : List Slot
  /-- the other parameters of rule R10: no instruction changes them -/
  params : Params
  /-- the model's own: how many free values have been drawn (assumptions 8 and 9) -/
  draws : Nat
deriving DecidableEq, Repr

/-- Why a step is not taken: only a `Running` machine steps (rule R46). Both are raised by `step`, and both are safe:
the spec gives a stopped machine no step (rules R450, R494). -/
inductive Fault where
  /-- `step` of a machine that has halted with this result. Safe: no step follows (rule R494). -/
  | afterHalt (result : Word)
  /-- `step` of a machine that has faulted for this reason. Safe: no step follows (rule R450). -/
  | afterFault (reason : FaultReason)
deriving DecidableEq, Repr

/-- Why the model refuses. -/
inductive Refusal where
  /-- an instruction without a meaning in this model; raised by `exec` for an arm that is rejected by name. Safe. -/
  | notModelled (mnemonic : String)
  /-- `launch`: the program is longer than `MAX_SLOTS`, so it has no behaviour (rule R492). Safe. -/
  | programTooLong
  /-- `launch`: `GROUPS` lacks `base32` or is not closed under the inclusions (rule R2). Safe. -/
  | groupsNotClosed
  /-- `launch`: the stack frames overlap one another, a region or a code address, or one does not fit below its
  R10 (rule R493). Safe. -/
  | badStackLayout
deriving DecidableEq, Repr

/-- What one step answers. -/
abbrev StepResult := Host.Outcome State Fault Refusal

/-- The entry state of a run (rule R490): R10 is the frame pointer of depth 0, R1 to R5 are what `ENTRY_REGS` gives,
every other register is unwritten; `mem` is the launch memory. -/
def State.entry (p : Params) (program : List Slot) (mem : Memory) : State where
  regs := {
    r0 := none
    r1 := p.entryRegs.r1
    r2 := p.entryRegs.r2
    r3 := p.entryRegs.r3
    r4 := p.entryRegs.r4
    r5 := p.entryRegs.r5
    r6 := none
    r7 := none
    r8 := none
    r9 := none
    r10 := some (p.framePointer 0) }
  pc := 0
  frames := []
  mem := mem
  status := .running
  program := program
  params := p
  draws := 0

/-- The parameters after reset: the defaults of rule R10, and an `ENTRY_REGS` that gives R1 to R5 the value 0
(DESIGN CHOICE, assumption 2: unsafe). -/
def Params.reset : Params :=
  { Params.default with entryRegs := ⟨some 0, some 0, some 0, some 0, some 0⟩ }

/-- The machine right after reset: the entry state of rule R490 with no program and nothing listed in memory, but that
R0 and R6 to R9, which the spec leaves without a value, hold 0, so that every register holds a value after reset
(DESIGN CHOICE, assumption 2: unsafe). `State.entry` is rule R490 to the letter. -/
def State.reset : State :=
  let s := State.entry Params.reset [] []
  { s with regs := { s.regs with r0 := some 0, r6 := some 0, r7 := some 0, r8 := some 0, r9 := some 0 } }

end Sys2Proof.Machine
end

