-- ==== Sys2Proof/Machine/Fetch.lean ====
section
/-!
DEFINITION. Machine/Fetch.lean: which slots start an instruction, and `Decode` of the slot at an index of the program
(rules R112, R113).
-/

namespace Sys2Proof.Machine

/-- Whether the slot after some slots is a second slot, read off from slot 0 on; `second` says it of the first of them.
A slot is a second slot exactly when the one before it has 'opcode' 0x18 and is not itself a second slot (rule R112). -/
def secondAfter : List Slot → Nat → Bool → Bool
  | _, 0, second => second
  | [], _ + 1, _ => false
  | s :: rest, n + 1, second => secondAfter rest n (isWideOpcode s && !second)

/-- `IsSecondSlot(i)` (rule R112). -/
def isSecondSlot (program : List Slot) (i : Nat) : Bool := secondAfter program i false

/-- `Decode(i)` for the program of a state: the instruction, or the fault that the step raises (rules R113, R452). -/
def decodeAt (s : State) (i : Nat) : Except FaultReason Instr :=
  match s.program[i]? with
  | none => .error (.fetchOutOfRange i)
  | some first =>
    if isSecondSlot s.program i then .error (.jumpIntoWide i)
    else
      match decode s.params first s.program[i + 1]? with
      | .error _ => .error (.illegalInstruction i)
      | .ok instr => .ok instr

/-- Zero slots before index `n`, where a program is shorter; a zero slot is no instruction. -/
def padProgram (program : List Slot) (n : Nat) : List Slot := program ++ List.replicate (n - program.length) 0

/-- A program whose slots `i` and `i + 1` are the two given ones and whose other slots are as they were; if slot `i`
would be a second slot, the slot before it is made zero so that `i` starts an instruction. -/
def placeSlots (program : List Slot) (i : Nat) (first second : Slot) : List Slot :=
  let padded := padProgram program (i + 2)
  let cleared := if isSecondSlot padded i then padded.set (i - 1) 0 else padded
  (cleared.set i first).set (i + 1) second

end Sys2Proof.Machine
end

