-- ==== Sys2Proof/Machine/Memory.lean ====
section
/-!
DEFINITION. Machine/Memory.lean: data memory as a list of cells in one canonical form (strictly rising addresses below
2^64), its byte operations, and the two byte orders of a value (20_memory.md).
-/

namespace Sys2Proof.Machine

/-- The canonical form: the addresses rise strictly and are 64-bit addresses. An unlisted address holds no value, so no
entry equals what an unlisted address reads as. -/
abbrev Memory.wf (m : Memory) : Prop := m.Pairwise (fun c d => c.1 < d.1) ∧ ∀ c ∈ m, c.1 < 2 ^ 64

/-- The byte at an address; `none` when it holds no value (rule R68). -/
def Memory.read : Memory → Nat → Option Byte
  | [], _ => none
  | (a, b) :: rest, x => if a = x then some b else Memory.read rest x

/-- Memory with the byte at an address written. -/
def Memory.write : Memory → Nat → Byte → Memory
  | [], x, v => [(x, v)]
  | (a, b) :: rest, x, v =>
    if x < a then (x, v) :: (a, b) :: rest
    else if x = a then (x, v) :: rest
    else (a, b) :: Memory.write rest x v

/-- Memory in which the byte at an address holds no value any more. -/
def Memory.clear (m : Memory) (x : Nat) : Memory := m.filter fun c => decide (c.1 ≠ x)

/-- Memory in which the bytes from `lo` up to and without `hi` hold no value any more (rule R68). -/
def Memory.clearRange (m : Memory) (lo hi : Nat) : Memory := m.filter fun c => decide (c.1 < lo ∨ hi ≤ c.1)

/-- The `n` bytes from an address on, lowest address first; `none` when one of them holds no value (rule R62). -/
def Memory.readBytes (m : Memory) (x : Nat) : Nat → Option (List Byte)
  | 0 => some []
  | n + 1 =>
    match m.read x with
    | none => none
    | some b =>
      match Memory.readBytes m (x + 1) n with
      | none => none
      | some bs => some (b :: bs)

/-- Memory with bytes written from an address on, lowest address first (rule R63). -/
def Memory.writeBytes (m : Memory) (x : Nat) : List Byte → Memory
  | [] => m
  | b :: bs => Memory.writeBytes (m.write x b) (x + 1) bs

/-- The number whose bytes are given, the least significant first. -/
def bytesToNat : List Byte → Nat
  | [] => 0
  | b :: bs => b.toNat + 256 * bytesToNat bs

/-- The `n` low bytes of a number, the least significant first. -/
def natToBytes : Nat → Nat → List Byte
  | 0, _ => []
  | n + 1, v => BitVec.ofNat 8 v :: natToBytes n (v / 256)

/-- The bytes in the order of the host, from the order that has the least significant first, and back (rule R61). -/
def hostOrder (e : Endian) (bs : List Byte) : List Byte :=
  match e with
  | .little => bs
  | .big => bs.reverse

/-- The value that bytes in host order stand for, zero-extended to 64 bits (rule R62). -/
def assemble (e : Endian) (bs : List Byte) : Word := BitVec.ofNat 64 (bytesToNat (hostOrder e bs))

/-- The low `8n` bits of a value as `n` bytes in host order (rule R63). -/
def layOut (e : Endian) (n : Nat) (v : Word) : List Byte := hostOrder e (natToBytes n v.toNat)

end Sys2Proof.Machine
end

