-- ==== Sys2Proof/Machine/Ops.lean ====
section
/-!
DEFINITION. Machine/Ops.lean: the primitives of rule R16 as operations on the state: reads and writes of registers,
`raise`, `halt`, `MemRead`, `MemWrite`, `AtomicRMW`, `Goto`, the helper call contract, the program-local call and its
return. An operation that may raise takes the rest of the instruction as its last argument, so that an instruction that
raises has had no effect (rule R450).
-/

namespace Sys2Proof.Machine

/-! ### Faults and the end of a run -/

/-- `raise F`: the instruction has no effect and the status becomes `Faulted(F)` (rules R450, R453). The machine has no
handler, no vector and no saved program counter (rule R467), so this is all of taking a fault, and there is no return
from it (rule R468). -/
def State.raise (s : State) (reason : FaultReason) : StepResult := .next { s with status := .faulted reason }

/-- `halt(v)`: the run ends with result `v`; everything else stays (rule R494). -/
def State.halt (s : State) (result : Word) : StepResult := .next { s with status := .halted result }

/-! ### Registers and the program counter -/

/-- What a register holds; `none` when it is unwritten (rule R33). -/
def Regs.get (x : Regs) : Reg → Option Word
  | .r0 => x.r0
  | .r1 => x.r1
  | .r2 => x.r2
  | .r3 => x.r3
  | .r4 => x.r4
  | .r5 => x.r5
  | .r6 => x.r6
  | .r7 => x.r7
  | .r8 => x.r8
  | .r9 => x.r9
  | .r10 => x.r10

/-- The registers with one of them holding a value, or unwritten: all 64 bits at once (rule R32). -/
def Regs.set (x : Regs) (r : Reg) (v : Option Word) : Regs :=
  match r with
  | .r0 => { x with r0 := v }
  | .r1 => { x with r1 := v }
  | .r2 => { x with r2 := v }
  | .r3 => { x with r3 := v }
  | .r4 => { x with r4 := v }
  | .r5 => { x with r5 := v }
  | .r6 => { x with r6 := v }
  | .r7 => { x with r7 := v }
  | .r8 => { x with r8 := v }
  | .r9 => { x with r9 := v }
  | .r10 => { x with r10 := v }

/-- R1 to R5 hold no value: the scratch registers after a call returns (rules R273, R279). -/
def Regs.dropScratch (x : Regs) : Regs := { x with r1 := none, r2 := none, r3 := none, r4 := none, r5 := none }

/-- `x[r]` as a state holds it. -/
def State.reg (s : State) (r : Reg) : Option Word := s.regs.get r

/-- `x[r] <- v` (rule R32). -/
def State.setReg (s : State) (r : Reg) (v : Word) : State := { s with regs := s.regs.set r (some v) }

/-- R1 to R5 become unwritten. -/
def State.dropScratch (s : State) : State := { s with regs := s.regs.dropScratch }

/-- `pc <- pc + k` (rule R39). -/
def State.advance (s : State) (k : Nat) : State := { s with pc := s.pc + k }

/-- Data memory replaced. -/
def State.setMem (s : State) (m : Memory) : State := { s with mem := m }

/-- One free value has been drawn (assumptions 8 and 9). -/
def State.drew (s : State) : State := { s with draws := s.draws + 1 }

/-- The call depth: the length of `frames` (rule R275). -/
def State.depth (s : State) : Nat := s.frames.length

/-- The read of `x[r]`: an unwritten register raises `UninitRegister(r)` (rules R33, R457). -/
def State.withReg (s : State) (r : Reg) (k : Word → StepResult) : StepResult :=
  match s.reg r with
  | some v => k v
  | none => s.raise (.uninitRegister r)

/-- The end of an instruction that writes one register and goes on to the next slot. -/
def State.writeNext (s : State) (r : Reg) (v : Word) : StepResult := .next ((s.setReg r v).advance 1)

/-! ### Data memory -/

/-- The effective address of a load, a store or an atomic operation: the sum wraps modulo 2^64 (rule R75). -/
def effectiveAddr (base : Word) (off : BitVec 16) : Word := base + off.signExtend 64

/-- `Admit(addr, n, kind)` at the call depth of a state (rule R66). -/
def State.admits (s : State) (addr : Word) (n : Nat) (kind : AccessKind) : Bool := s.params.admits s.depth addr n kind

/-- `MemRead(addr, n)`, and the read half of `AtomicRMW`: `Admit` first, then a value in every byte (rules R62, R371). -/
def State.readMem (s : State) (addr : Word) (n : Nat) (kind : AccessKind) (k : Word → StepResult) : StepResult :=
  if s.admits addr n kind then
    match s.mem.readBytes addr.toNat n with
    | some bs => k (assemble s.params.hostEndian bs)
    | none => s.raise (.uninitMemory addr)
  else s.raise (.memoryAccessFault addr n kind)

/-- The state with the low `8n` bits of `v` stored at `addr` as `n` bytes in host order (rule R63). -/
def State.store (s : State) (addr : Word) (n : Nat) (v : Word) : State :=
  s.setMem (s.mem.writeBytes addr.toNat (layOut s.params.hostEndian n v))

/-- `MemWrite(addr, n, v)`: all `n` bytes or, on a fault, none (rule R63). -/
def State.writeMem (s : State) (addr : Word) (n : Nat) (v : Word) (k : State → StepResult) : StepResult :=
  if s.admits addr n .write then k (s.store addr n v) else s.raise (.memoryAccessFault addr n .write)

/-- `AtomicRMW(addr, n, f)`: one indivisible read of the old value and, where `f` is defined on it, write of the new one
(rules R16, R371). Both halves are one access of kind `atomic`. -/
def State.atomicRmw (s : State) (addr : Word) (n : Nat) (f : Word → Option Word) (k : Word → State → StepResult) :
    StepResult :=
  s.readMem addr n .atomic fun old =>
    match f old with
    | some v => k old (s.store addr n v)
    | none => k old s

/-! ### Control transfer -/

/-- The target of a jump: counted from the slot after the jump, on integers, without wrapping (rule R260). -/
def State.target (s : State) (k : Int) : Int := (s.pc : Int) + 1 + k

/-- The checks of `Goto(t)`: inside the program, and no second slot (rules R262, R263). -/
def State.checkTarget (s : State) (t : Int) (k : Nat → StepResult) : StepResult :=
  if t < 0 ∨ (s.program.length : Int) ≤ t then s.raise (.jumpOutOfRange t)
  else if isSecondSlot s.program t.toNat then s.raise (.jumpIntoWide t.toNat)
  else k t.toNat

/-- `Goto(t)` (rule R262). -/
def State.goto (s : State) (t : Int) : StepResult := s.checkTarget t fun i => .next { s with pc := i }

/-! ### Helper functions (rule R273) -/

/-- The value of a helper's expression on the argument values. An argument outside the helper's arity reads as 0. -/
def HelperExpr.eval (args : List Word) : HelperExpr → Word
  | .const v => v
  | .arg k => args.getD k.val 0
  | .add a b => HelperExpr.eval args a + HelperExpr.eval args b

/-- What a helper's `run` answers on its argument values and data memory. -/
def runHelper (table : HelperTable) (id : Word32) (body : HelperBody) (args : List Word) (m : Memory) (draw : Nat) :
    HelperOutcome :=
  match body with
  | .computed result stores =>
    .returns (HelperExpr.eval args result)
      (stores.map fun st => (HelperExpr.eval args st.1, some ((HelperExpr.eval args st.2).setWidth 8)))
  | .fails reason => .fails reason
  | .table entries otherwise => (lookupTable entries (args, m)).getD otherwise
  | .external => Config.helperOutcome table id args m draw

/-- Data memory after the bytes a helper changed, in their order: its accesses are its own and not subject to `Admit`
(rule R273). -/
def applyWrites (m : Memory) : List (Word × Option Byte) → Memory
  | [] => m
  | (a, some b) :: rest => applyWrites (m.write a.toNat b) rest
  | (a, none) :: rest => applyWrites (m.clear a.toNat) rest

/-- The argument registers in their order: R1 to R5 (rule R37). -/
def argRegs : List Reg := [.r1, .r2, .r3, .r4, .r5]

/-- The reads of several registers, the first unwritten one raising (rule R452). -/
def State.withRegs (s : State) : List Reg → (List Word → StepResult) → StepResult
  | [], k => k []
  | r :: rs, k => s.withReg r fun v => s.withRegs rs fun vs => k (v :: vs)

/-- `CallHelper(table, id)` (rule R273): the lookup, the argument registers, the helper's own run, and then R0, memory
and the scratch registers. R6 to R10 and `frames` stay. An `external` helper uses up one draw. -/
def State.callHelper (s : State) (table : HelperTable) (id : Word32) : StepResult :=
  match lookupTable (s.params.helperTable table) id with
  | none => s.raise (.unknownHelper id)
  | some h =>
    s.withRegs (argRegs.take h.arity.val) fun args =>
      match runHelper table id h.body args s.mem s.draws with
      | .fails reason => s.raise (.helperFault id reason)
      | .returns r0 writes =>
        let s := if h.body = .external then s.drew else s
        .next (((s.setMem (applyWrites s.mem writes)).setReg .r0 r0).dropScratch.advance 1)

/-! ### Program-local functions (rules R274 to R279) -/

/-- The frame that a program-local call saves: R6 to R10 as they are, unwritten or not (rule R276). -/
def State.savedFrame (s : State) : Frame :=
  { ret := s.pc + 1, r6 := s.regs.r6, r7 := s.regs.r7, r8 := s.regs.r8, r9 := s.regs.r9, r10 := s.regs.r10 }

/-- The state in which a callee starts at slot `t` (rule R277). Its stack frame becomes live, and no byte of it holds a
value, whatever a helper left there (rule R68). -/
def State.enter (s : State) (t : Nat) : State :=
  { s with
    frames := s.savedFrame :: s.frames
    regs := { s.regs with
      r0 := none
      r6 := none
      r7 := none
      r8 := none
      r9 := none
      r10 := some (s.params.framePointer (s.depth + 1)) }
    mem := s.mem.clearRange (s.params.frameBase (s.depth + 1)) (s.params.frameTop (s.depth + 1))
    pc := t }

/-- The state to which a callee returns, with the frame it pops and the frames below (rules R278, R279, R68). -/
def State.leave (s : State) (f : Frame) (rest : List Frame) : State :=
  { s with
    frames := rest
    mem := s.mem.clearRange (s.params.frameBase s.depth) (s.params.frameTop s.depth)
    regs := { s.regs.dropScratch with
      r6 := f.r6
      r7 := f.r7
      r8 := f.r8
      r9 := f.r9
      r10 := f.r10 }
    pc := f.ret }

/-! ### Other agents (rules R80, R81) -/

/-- What the environment may do between two instructions: change bytes of shared regions, and no byte of the stack. A
change elsewhere is discarded. It is no part of `step`; a run has such steps between those of the machine
(`State.Reaches`, assumption 7). -/
def State.envStep (s : State) (changes : List (Word × Byte)) : State :=
  s.setMem (changes.foldl
    (fun m c => if s.params.sharedByte c.1.toNat && !s.params.stackByte c.1.toNat then m.write c.1.toNat c.2 else m)
    s.mem)

end Sys2Proof.Machine
end

