-- ==== Sys2Proof/Machine/Operands.lean ====
section
/-!
DEFINITION. Machine/Operands.lean: the operand forms of the instructions, each with its reads in the fixed order (rule
R452: `dst_reg`, `src_reg`, implicit registers), its computation, its write-back and its next program counter. A meaning
in the family files names a form and an operation.
-/

namespace Sys2Proof.Machine

/-! ### Arithmetic (rules R151, R152, R166, R168): form `K` takes 'imm', form `X` a register -/

/-- 32-bit operation with an immediate: low halves in, zero-extended result out (rules R32, R151, R152). -/
def alu32K (f : Word32 → Word32 → Word32) (dst : Reg) (imm : Word32) (s : State) : StepResult :=
  s.withReg dst fun a => s.writeNext dst (zext64 (f (low32 a) imm))

/-- 32-bit operation with a register. -/
def alu32X (f : Word32 → Word32 → Word32) (dst src : Reg) (s : State) : StepResult :=
  s.withReg dst fun a => s.withReg src fun b => s.writeNext dst (zext64 (f (low32 a) (low32 b)))

/-- 64-bit operation with an immediate, which is sign-extended (rules R110, R151). -/
def alu64K (f : Word → Word → Word) (dst : Reg) (imm : Word32) (s : State) : StepResult :=
  s.withReg dst fun a => s.writeNext dst (f a (sext64 imm))

/-- 64-bit operation with a register. -/
def alu64X (f : Word → Word → Word) (dst src : Reg) (s : State) : StepResult :=
  s.withReg dst fun a => s.withReg src fun b => s.writeNext dst (f a b)

/-- 32-bit operation on the destination alone (rule R160). -/
def alu32Unary (f : Word32 → Word32) (dst : Reg) (s : State) : StepResult :=
  s.withReg dst fun a => s.writeNext dst (zext64 (f (low32 a)))

/-- 64-bit operation on the destination alone (rule R160). -/
def alu64Unary (f : Word → Word) (dst : Reg) (s : State) : StepResult :=
  s.withReg dst fun a => s.writeNext dst (f a)

/-- A move: the destination is written and not read (rule R161). -/
def moveX (f : Word → Word) (dst src : Reg) (s : State) : StepResult :=
  s.withReg src fun b => s.writeNext dst (f b)

/-- The end of a signed division of `n` bits: under `SDIV_OVERFLOW` = `draw` the quotient that does not fit is any `n`-bit
value, a free value drawn anew each time; else it wraps (rule R158). -/
def State.writeQuotient {n : Nat} (s : State) (dst : Reg) (a b : BitVec n) : StepResult :=
  if s.params.sdivOverflow = .draw ∧ sdivOverflows a b then
    s.drew.writeNext dst (((Config.drawnWord s.draws).setWidth n).setWidth 64)
  else s.writeNext dst ((opSdiv a b).setWidth 64)

/-- 32-bit signed division by an immediate. -/
def sdiv32K (dst : Reg) (imm : Word32) (s : State) : StepResult :=
  s.withReg dst fun a => s.writeQuotient dst (low32 a) imm

/-- 32-bit signed division by a register. -/
def sdiv32X (dst src : Reg) (s : State) : StepResult :=
  s.withReg dst fun a => s.withReg src fun b => s.writeQuotient dst (low32 a) (low32 b)

/-- 64-bit signed division by an immediate. -/
def sdiv64K (dst : Reg) (imm : Word32) (s : State) : StepResult :=
  s.withReg dst fun a => s.writeQuotient dst a (sext64 imm)

/-- 64-bit signed division by a register. -/
def sdiv64X (dst src : Reg) (s : State) : StepResult :=
  s.withReg dst fun a => s.withReg src fun b => s.writeQuotient dst a b

/-! ### Byte swaps (rules R240 to R243) -/

/-- `htole` of a value, given its swapped form: the value itself on a little-endian host (rule R12). -/
def toLittle {n : Nat} (e : Endian) (swap : BitVec n → BitVec n) (v : BitVec n) : BitVec n :=
  match e with
  | .little => v
  | .big => swap v

/-- `htobe` of a value, given its swapped form: the value itself on a big-endian host (rule R12). -/
def toBig {n : Nat} (e : Endian) (swap : BitVec n → BitVec n) (v : BitVec n) : BitVec n :=
  match e with
  | .little => swap v
  | .big => v

/-- A byte swap of width `w`: the low `w` bits in, the `w`-bit result zero-extended out (rule R242). -/
def swapLow (w : Nat) (f : BitVec w → BitVec w) (dst : Reg) (s : State) : StepResult :=
  s.withReg dst fun a => s.writeNext dst ((f (a.setWidth w)).setWidth 64)

/-! ### Jumps (rules R260, R261, R269) -/

/-- The end of a conditional jump: only a taken one checks its target (rule R269). -/
def State.jumpIf (s : State) (taken : Bool) (off : BitVec 16) : StepResult :=
  if taken then s.goto (s.target off.toInt) else .next (s.advance 1)

/-- 64-bit comparison with an immediate, which is sign-extended (rule R261). -/
def jump64K (c : Word → Word → Bool) (dst : Reg) (off : BitVec 16) (imm : Word32) (s : State) : StepResult :=
  s.withReg dst fun a => s.jumpIf (c a (sext64 imm)) off

/-- 64-bit comparison with a register (rule R261). -/
def jump64X (c : Word → Word → Bool) (dst src : Reg) (off : BitVec 16) (s : State) : StepResult :=
  s.withReg dst fun a => s.withReg src fun b => s.jumpIf (c a b) off

/-- 32-bit comparison with an immediate (rule R261). -/
def jump32K (c : Word32 → Word32 → Bool) (dst : Reg) (off : BitVec 16) (imm : Word32) (s : State) : StepResult :=
  s.withReg dst fun a => s.jumpIf (c (low32 a) imm) off

/-- 32-bit comparison with a register (rule R261). -/
def jump32X (c : Word32 → Word32 → Bool) (dst src : Reg) (off : BitVec 16) (s : State) : StepResult :=
  s.withReg dst fun a => s.withReg src fun b => s.jumpIf (c (low32 a) (low32 b)) off

/-! ### Loads and stores (rules R340 to R344) -/

/-- A load of `n` bytes, extended to the register by `f` (rules R341, R342). -/
def loadForm (n : Nat) (f : Word → Word) (dst src : Reg) (off : BitVec 16) (s : State) : StepResult :=
  s.withReg src fun base => s.readMem (effectiveAddr base off) n .read fun v => s.writeNext dst (f v)

/-- A store of an immediate in `n` bytes: `MemWrite` keeps the low `8n` bits of its sign extension (rule R344). -/
def storeImm (n : Nat) (dst : Reg) (off : BitVec 16) (imm : Word32) (s : State) : StepResult :=
  s.withReg dst fun base => s.writeMem (effectiveAddr base off) n (sext64 imm) fun t => .next (t.advance 1)

/-- A store of a register in `n` bytes: `MemWrite` keeps its low `8n` bits (rule R343). -/
def storeReg (n : Nat) (dst src : Reg) (off : BitVec 16) (s : State) : StepResult :=
  s.withReg dst fun base => s.withReg src fun v =>
    s.writeMem (effectiveAddr base off) n v fun t => .next (t.advance 1)

/-! ### Atomic operations (rules R370 to R381) -/

/-- A 32-bit function on 64-bit patterns: the low halves in, the result zero-extended (rule R378). -/
def on32 (f : Word32 → Word32 → Word32) (old v : Word) : Word := zext64 (f (low32 old) (low32 v))

/-- An atomic operation of `n` bytes without `FETCH`: the old value is discarded. -/
def atomicForm (n : Nat) (f : Word → Word → Word) (dst src : Reg) (off : BitVec 16) (s : State) : StepResult :=
  s.withReg dst fun base => s.withReg src fun v =>
    s.atomicRmw (effectiveAddr base off) n (fun old => some (f old v)) fun _ t => .next (t.advance 1)

/-- An atomic operation of `n` bytes with `FETCH`: the old value, zero-extended, goes to `src_reg` (rule R375). -/
def atomicFetchForm (n : Nat) (f : Word → Word → Word) (dst src : Reg) (off : BitVec 16) (s : State) : StepResult :=
  s.withReg dst fun base => s.withReg src fun v =>
    s.atomicRmw (effectiveAddr base off) n (fun old => some (f old v)) fun old t => t.writeNext src old

/-- `CMPXCHG` of `n` bytes: the old value is compared with `eq` of R0, `src_reg` replaces it where they match, and in
either case the old value, zero-extended, goes to R0 (rules R377, R400, R401). -/
def cmpxchgForm (n : Nat) (eq : Word → Word → Bool) (dst src : Reg) (off : BitVec 16) (s : State) : StepResult :=
  s.withReg dst fun base => s.withReg src fun v => s.withReg .r0 fun e =>
    s.atomicRmw (effectiveAddr base off) n (fun old => if eq old e then some v else none) fun old t =>
      t.writeNext .r0 old

/-! ### 64-bit immediates (rules R408 to R416) -/

/-- The end of a wide instruction: the value goes to the destination and the next slot but one is next; a value that the
platform does not define raises `PlatformUnsupported` (rules R408, R414). -/
def State.writeWide (s : State) (dst : Reg) (v : Option Word) : StepResult :=
  match v with
  | some v => .next ((s.setReg dst v).advance 2)
  | none => s.raise (.platformUnsupported s.pc)

/-! ### Legacy packet access (rules R430 to R434) -/

/-- The value of bytes in network order, most significant first (rule R432). -/
def networkOrder (bs : List Byte) : Word := BitVec.ofNat 64 (bytesToNat bs.reverse)

/-- A packet load of `n` bytes at a signed byte offset: outside the packet the whole program ends with result 0 (rules
R432, R434). -/
def State.packetLoad (s : State) (pkt : List Byte) (n : Nat) (k : Int) : StepResult :=
  if k < 0 ∨ (pkt.length : Int) < k + n then s.halt 0
  else .next ((s.setReg .r0 (networkOrder ((pkt.drop k.toNat).take n))).dropScratch.advance 1)

/-- `ABS`: R6 is read and not used; the offset is the signed 'imm' (rule R432). -/
def packetAbs (n : Nat) (imm : Word32) (s : State) : StepResult :=
  match s.params.packet with
  | .unsupported => s.raise (.platformUnsupported s.pc)
  | .linux pkt => s.withReg .r6 fun _ => s.packetLoad pkt n imm.toInt

/-- `IND`: the offset is the signed 32-bit sum of the register and 'imm' (rules R432, R434). -/
def packetInd (n : Nat) (src : Reg) (imm : Word32) (s : State) : StepResult :=
  match s.params.packet with
  | .unsupported => s.raise (.platformUnsupported s.pc)
  | .linux pkt => s.withReg src fun v => s.withReg .r6 fun _ => s.packetLoad pkt n (low32 v + imm).toInt

end Sys2Proof.Machine
end

