-- ==== Sys2Proof/Machine/Alu.lean ====
section
/-!
DEFINITION. Machine/Alu.lean: the 32-bit arithmetic of class `ALU` (40_alu.md, 40_alu_part2.md).
Each reads and writes low halves and zeroes the upper half of its destination (rule R152).
-/

namespace Sys2Proof.Machine

/-- `ALU_ADD_K`: `wD += imm` (rule R170). -/
def execAluAddK (dst : Reg) (imm : Word32) (s : State) : StepResult :=
  alu32K opAdd dst imm s

/-- `ALU_ADD_X`: `wD += wS` (rule R171). -/
def execAluAddX (dst src : Reg) (s : State) : StepResult :=
  alu32X opAdd dst src s

/-- `ALU_SUB_K`: `wD -= imm` (rule R174). -/
def execAluSubK (dst : Reg) (imm : Word32) (s : State) : StepResult :=
  alu32K opSub dst imm s

/-- `ALU_SUB_X`: `wD -= wS` (rule R175). -/
def execAluSubX (dst src : Reg) (s : State) : StepResult :=
  alu32X opSub dst src s

/-- `ALU_MUL_K`: `wD *= imm` (rule R178). -/
def execAluMulK (dst : Reg) (imm : Word32) (s : State) : StepResult :=
  alu32K opMul dst imm s

/-- `ALU_MUL_X`: `wD *= wS` (rule R179). -/
def execAluMulX (dst src : Reg) (s : State) : StepResult :=
  alu32X opMul dst src s

/-- `ALU_DIV_K`: `wD /= imm` (rule R182). -/
def execAluDivK (dst : Reg) (imm : Word32) (s : State) : StepResult :=
  alu32K opDiv dst imm s

/-- `ALU_DIV_X`: `wD /= wS` (rule R183). -/
def execAluDivX (dst src : Reg) (s : State) : StepResult :=
  alu32X opDiv dst src s

/-- `ALU_SDIV_K`: `wD s/= imm` (rule R186). -/
def execAluSdivK (dst : Reg) (imm : Word32) (s : State) : StepResult :=
  sdiv32K dst imm s

/-- `ALU_SDIV_X`: `wD s/= wS` (rule R187). -/
def execAluSdivX (dst src : Reg) (s : State) : StepResult :=
  sdiv32X dst src s

/-- `ALU_OR_K`: `wD |= imm` (rule R190). -/
def execAluOrK (dst : Reg) (imm : Word32) (s : State) : StepResult :=
  alu32K opOr dst imm s

/-- `ALU_OR_X`: `wD |= wS` (rule R191). -/
def execAluOrX (dst src : Reg) (s : State) : StepResult :=
  alu32X opOr dst src s

/-- `ALU_AND_K`: `wD &= imm` (rule R194). -/
def execAluAndK (dst : Reg) (imm : Word32) (s : State) : StepResult :=
  alu32K opAnd dst imm s

/-- `ALU_AND_X`: `wD &= wS` (rule R195). -/
def execAluAndX (dst src : Reg) (s : State) : StepResult :=
  alu32X opAnd dst src s

/-- `ALU_LSH_K`: `wD <<= imm` (rule R198). -/
def execAluLshK (dst : Reg) (imm : Word32) (s : State) : StepResult :=
  alu32K opLsh dst imm s

/-- `ALU_LSH_X`: `wD <<= wS` (rule R199). -/
def execAluLshX (dst src : Reg) (s : State) : StepResult :=
  alu32X opLsh dst src s

/-- `ALU_RSH_K`: `wD >>= imm` (rule R202). -/
def execAluRshK (dst : Reg) (imm : Word32) (s : State) : StepResult :=
  alu32K opRsh dst imm s

/-- `ALU_RSH_X`: `wD >>= wS` (rule R203). -/
def execAluRshX (dst src : Reg) (s : State) : StepResult :=
  alu32X opRsh dst src s

/-- `ALU_NEG_K`: `wD = -wD` (rule R206). -/
def execAluNegK (dst : Reg) (s : State) : StepResult :=
  alu32Unary opNeg dst s

/-- `ALU_MOD_K`: `wD %= imm` (rule R208). -/
def execAluModK (dst : Reg) (imm : Word32) (s : State) : StepResult :=
  alu32K opMod dst imm s

/-- `ALU_MOD_X`: `wD %= wS` (rule R209). -/
def execAluModX (dst src : Reg) (s : State) : StepResult :=
  alu32X opMod dst src s

/-- `ALU_SMOD_K`: `wD s%= imm` (rule R212). -/
def execAluSmodK (dst : Reg) (imm : Word32) (s : State) : StepResult :=
  alu32K opSmod dst imm s

/-- `ALU_SMOD_X`: `wD s%= wS` (rule R213). -/
def execAluSmodX (dst src : Reg) (s : State) : StepResult :=
  alu32X opSmod dst src s

/-- `ALU_XOR_K`: `wD ^= imm` (rule R216). -/
def execAluXorK (dst : Reg) (imm : Word32) (s : State) : StepResult :=
  alu32K opXor dst imm s

/-- `ALU_XOR_X`: `wD ^= wS` (rule R217). -/
def execAluXorX (dst src : Reg) (s : State) : StepResult :=
  alu32X opXor dst src s

/-- `ALU_MOV_K`: `wD = imm` (rule R220). -/
def execAluMovK (dst : Reg) (imm : Word32) (s : State) : StepResult :=
  s.writeNext dst (zext64 imm)

/-- `ALU_MOV_X`: `wD = wS` (rule R221). -/
def execAluMovX (dst src : Reg) (s : State) : StepResult :=
  moveX (fun b => zext64 (low32 b)) dst src s

/-- `ALU_MOVSX8_X`: `wD = (s8)wS` (rule R224). -/
def execAluMovsx8X (dst src : Reg) (s : State) : StepResult :=
  moveX (fun b => zext64 (signExtendLow 8 32 b)) dst src s

/-- `ALU_MOVSX16_X`: `wD = (s16)wS` (rule R225). -/
def execAluMovsx16X (dst src : Reg) (s : State) : StepResult :=
  moveX (fun b => zext64 (signExtendLow 16 32 b)) dst src s

/-- `ALU_ARSH_K`: `wD s>>= imm` (rule R229). -/
def execAluArshK (dst : Reg) (imm : Word32) (s : State) : StepResult :=
  alu32K opArsh dst imm s

/-- `ALU_ARSH_X`: `wD s>>= wS` (rule R230). -/
def execAluArshX (dst src : Reg) (s : State) : StepResult :=
  alu32X opArsh dst src s

end Sys2Proof.Machine
end

