-- ==== Sys2Proof/Machine/Alu64.lean ====
section
/-!
DEFINITION. Machine/Alu64.lean: the 64-bit arithmetic of class `ALU64` (40_alu.md, 40_alu_part2.md).
-/

namespace Sys2Proof.Machine

/-- `ALU64_ADD_K`: `rD += imm` (rule R172). -/
def execAlu64AddK (dst : Reg) (imm : Word32) (s : State) : StepResult :=
  alu64K opAdd dst imm s

/-- `ALU64_ADD_X`: `rD += rS` (rule R173). -/
def execAlu64AddX (dst src : Reg) (s : State) : StepResult :=
  alu64X opAdd dst src s

/-- `ALU64_SUB_K`: `rD -= imm` (rule R176). -/
def execAlu64SubK (dst : Reg) (imm : Word32) (s : State) : StepResult :=
  alu64K opSub dst imm s

/-- `ALU64_SUB_X`: `rD -= rS` (rule R177). -/
def execAlu64SubX (dst src : Reg) (s : State) : StepResult :=
  alu64X opSub dst src s

/-- `ALU64_MUL_K`: `rD *= imm` (rule R180). -/
def execAlu64MulK (dst : Reg) (imm : Word32) (s : State) : StepResult :=
  alu64K opMul dst imm s

/-- `ALU64_MUL_X`: `rD *= rS` (rule R181). -/
def execAlu64MulX (dst src : Reg) (s : State) : StepResult :=
  alu64X opMul dst src s

/-- `ALU64_DIV_K`: `rD /= imm` (rule R184). -/
def execAlu64DivK (dst : Reg) (imm : Word32) (s : State) : StepResult :=
  alu64K opDiv dst imm s

/-- `ALU64_DIV_X`: `rD /= rS` (rule R185). -/
def execAlu64DivX (dst src : Reg) (s : State) : StepResult :=
  alu64X opDiv dst src s

/-- `ALU64_SDIV_K`: `rD s/= imm` (rule R188). -/
def execAlu64SdivK (dst : Reg) (imm : Word32) (s : State) : StepResult :=
  sdiv64K dst imm s

/-- `ALU64_SDIV_X`: `rD s/= rS` (rule R189). -/
def execAlu64SdivX (dst src : Reg) (s : State) : StepResult :=
  sdiv64X dst src s

/-- `ALU64_OR_K`: `rD |= imm` (rule R192). -/
def execAlu64OrK (dst : Reg) (imm : Word32) (s : State) : StepResult :=
  alu64K opOr dst imm s

/-- `ALU64_OR_X`: `rD |= rS` (rule R193). -/
def execAlu64OrX (dst src : Reg) (s : State) : StepResult :=
  alu64X opOr dst src s

/-- `ALU64_AND_K`: `rD &= imm` (rule R196). -/
def execAlu64AndK (dst : Reg) (imm : Word32) (s : State) : StepResult :=
  alu64K opAnd dst imm s

/-- `ALU64_AND_X`: `rD &= rS` (rule R197). -/
def execAlu64AndX (dst src : Reg) (s : State) : StepResult :=
  alu64X opAnd dst src s

/-- `ALU64_LSH_K`: `rD <<= imm` (rule R200). -/
def execAlu64LshK (dst : Reg) (imm : Word32) (s : State) : StepResult :=
  alu64K opLsh dst imm s

/-- `ALU64_LSH_X`: `rD <<= rS` (rule R201). -/
def execAlu64LshX (dst src : Reg) (s : State) : StepResult :=
  alu64X opLsh dst src s

/-- `ALU64_RSH_K`: `rD >>= imm` (rule R204). -/
def execAlu64RshK (dst : Reg) (imm : Word32) (s : State) : StepResult :=
  alu64K opRsh dst imm s

/-- `ALU64_RSH_X`: `rD >>= rS` (rule R205). -/
def execAlu64RshX (dst src : Reg) (s : State) : StepResult :=
  alu64X opRsh dst src s

/-- `ALU64_NEG_K`: `rD = -rD` (rule R207). -/
def execAlu64NegK (dst : Reg) (s : State) : StepResult :=
  alu64Unary opNeg dst s

/-- `ALU64_MOD_K`: `rD %= imm` (rule R210). -/
def execAlu64ModK (dst : Reg) (imm : Word32) (s : State) : StepResult :=
  alu64K opMod dst imm s

/-- `ALU64_MOD_X`: `rD %= rS` (rule R211). -/
def execAlu64ModX (dst src : Reg) (s : State) : StepResult :=
  alu64X opMod dst src s

/-- `ALU64_SMOD_K`: `rD s%= imm` (rule R214). -/
def execAlu64SmodK (dst : Reg) (imm : Word32) (s : State) : StepResult :=
  alu64K opSmod dst imm s

/-- `ALU64_SMOD_X`: `rD s%= rS` (rule R215). -/
def execAlu64SmodX (dst src : Reg) (s : State) : StepResult :=
  alu64X opSmod dst src s

/-- `ALU64_XOR_K`: `rD ^= imm` (rule R218). -/
def execAlu64XorK (dst : Reg) (imm : Word32) (s : State) : StepResult :=
  alu64K opXor dst imm s

/-- `ALU64_XOR_X`: `rD ^= rS` (rule R219). -/
def execAlu64XorX (dst src : Reg) (s : State) : StepResult :=
  alu64X opXor dst src s

/-- `ALU64_MOV_K`: `rD = imm` (rule R222). -/
def execAlu64MovK (dst : Reg) (imm : Word32) (s : State) : StepResult :=
  s.writeNext dst (sext64 imm)

/-- `ALU64_MOV_X`: `rD = rS` (rule R223). -/
def execAlu64MovX (dst src : Reg) (s : State) : StepResult :=
  moveX (fun b => b) dst src s

/-- `ALU64_MOVSX8_X`: `rD = (s8)rS` (rule R226). -/
def execAlu64Movsx8X (dst src : Reg) (s : State) : StepResult :=
  moveX (signExtendLow 8 64) dst src s

/-- `ALU64_MOVSX16_X`: `rD = (s16)rS` (rule R227). -/
def execAlu64Movsx16X (dst src : Reg) (s : State) : StepResult :=
  moveX (signExtendLow 16 64) dst src s

/-- `ALU64_MOVSX32_X`: `rD = (s32)rS` (rule R228). -/
def execAlu64Movsx32X (dst src : Reg) (s : State) : StepResult :=
  moveX (signExtendLow 32 64) dst src s

/-- `ALU64_ARSH_K`: `rD s>>= imm` (rule R231). -/
def execAlu64ArshK (dst : Reg) (imm : Word32) (s : State) : StepResult :=
  alu64K opArsh dst imm s

/-- `ALU64_ARSH_X`: `rD s>>= rS` (rule R232). -/
def execAlu64ArshX (dst src : Reg) (s : State) : StepResult :=
  alu64X opArsh dst src s

end Sys2Proof.Machine
end

