-- ==== Sys2Proof/Machine/Atomic.lean ====
section
/-!
DEFINITION. Machine/Atomic.lean: the atomic operations (44_atomic.md).
-/

namespace Sys2Proof.Machine

/-- `STX_ATOMIC_W_ADD`: `lock *(u32 *)(rD + offset) += wS` (rule R382). -/
def execStxAtomicWAdd (dst src : Reg) (off : BitVec 16) (s : State) : StepResult :=
  atomicForm 4 (on32 opAdd) dst src off s

/-- `STX_ATOMIC_DW_ADD`: `lock *(u64 *)(rD + offset) += rS` (rule R383). -/
def execStxAtomicDwAdd (dst src : Reg) (off : BitVec 16) (s : State) : StepResult :=
  atomicForm 8 opAdd dst src off s

/-- `STX_ATOMIC_W_OR`: `lock *(u32 *)(rD + offset) |= wS` (rule R384). -/
def execStxAtomicWOr (dst src : Reg) (off : BitVec 16) (s : State) : StepResult :=
  atomicForm 4 (on32 opOr) dst src off s

/-- `STX_ATOMIC_DW_OR`: `lock *(u64 *)(rD + offset) |= rS` (rule R385). -/
def execStxAtomicDwOr (dst src : Reg) (off : BitVec 16) (s : State) : StepResult :=
  atomicForm 8 opOr dst src off s

/-- `STX_ATOMIC_W_AND`: `lock *(u32 *)(rD + offset) &= wS` (rule R386). -/
def execStxAtomicWAnd (dst src : Reg) (off : BitVec 16) (s : State) : StepResult :=
  atomicForm 4 (on32 opAnd) dst src off s

/-- `STX_ATOMIC_DW_AND`: `lock *(u64 *)(rD + offset) &= rS` (rule R387). -/
def execStxAtomicDwAnd (dst src : Reg) (off : BitVec 16) (s : State) : StepResult :=
  atomicForm 8 opAnd dst src off s

/-- `STX_ATOMIC_W_XOR`: `lock *(u32 *)(rD + offset) ^= wS` (rule R388). -/
def execStxAtomicWXor (dst src : Reg) (off : BitVec 16) (s : State) : StepResult :=
  atomicForm 4 (on32 opXor) dst src off s

/-- `STX_ATOMIC_DW_XOR`: `lock *(u64 *)(rD + offset) ^= rS` (rule R389). -/
def execStxAtomicDwXor (dst src : Reg) (off : BitVec 16) (s : State) : StepResult :=
  atomicForm 8 opXor dst src off s

/-- `STX_ATOMIC_W_ADD_FETCH`: `wS = atomic_fetch_add((u32 *)(rD + offset), wS)` (rule R390). -/
def execStxAtomicWAddFetch (dst src : Reg) (off : BitVec 16) (s : State) : StepResult :=
  atomicFetchForm 4 (on32 opAdd) dst src off s

/-- `STX_ATOMIC_DW_ADD_FETCH`: `rS = atomic_fetch_add((u64 *)(rD + offset), rS)` (rule R391). -/
def execStxAtomicDwAddFetch (dst src : Reg) (off : BitVec 16) (s : State) : StepResult :=
  atomicFetchForm 8 opAdd dst src off s

/-- `STX_ATOMIC_W_OR_FETCH`: `wS = atomic_fetch_or((u32 *)(rD + offset), wS)` (rule R392). -/
def execStxAtomicWOrFetch (dst src : Reg) (off : BitVec 16) (s : State) : StepResult :=
  atomicFetchForm 4 (on32 opOr) dst src off s

/-- `STX_ATOMIC_DW_OR_FETCH`: `rS = atomic_fetch_or((u64 *)(rD + offset), rS)` (rule R393). -/
def execStxAtomicDwOrFetch (dst src : Reg) (off : BitVec 16) (s : State) : StepResult :=
  atomicFetchForm 8 opOr dst src off s

/-- `STX_ATOMIC_W_AND_FETCH`: `wS = atomic_fetch_and((u32 *)(rD + offset), wS)` (rule R394). -/
def execStxAtomicWAndFetch (dst src : Reg) (off : BitVec 16) (s : State) : StepResult :=
  atomicFetchForm 4 (on32 opAnd) dst src off s

/-- `STX_ATOMIC_DW_AND_FETCH`: `rS = atomic_fetch_and((u64 *)(rD + offset), rS)` (rule R395). -/
def execStxAtomicDwAndFetch (dst src : Reg) (off : BitVec 16) (s : State) : StepResult :=
  atomicFetchForm 8 opAnd dst src off s

/-- `STX_ATOMIC_W_XOR_FETCH`: `wS = atomic_fetch_xor((u32 *)(rD + offset), wS)` (rule R396). -/
def execStxAtomicWXorFetch (dst src : Reg) (off : BitVec 16) (s : State) : StepResult :=
  atomicFetchForm 4 (on32 opXor) dst src off s

/-- `STX_ATOMIC_DW_XOR_FETCH`: `rS = atomic_fetch_xor((u64 *)(rD + offset), rS)` (rule R397). -/
def execStxAtomicDwXorFetch (dst src : Reg) (off : BitVec 16) (s : State) : StepResult :=
  atomicFetchForm 8 opXor dst src off s

/-- `STX_ATOMIC_W_XCHG`: `wS = xchg32_32(rD + offset, wS)` (rule R398). -/
def execStxAtomicWXchg (dst src : Reg) (off : BitVec 16) (s : State) : StepResult :=
  atomicFetchForm 4 (fun _ v => v) dst src off s

/-- `STX_ATOMIC_DW_XCHG`: `rS = xchg_64(rD + offset, rS)` (rule R399). -/
def execStxAtomicDwXchg (dst src : Reg) (off : BitVec 16) (s : State) : StepResult :=
  atomicFetchForm 8 (fun _ v => v) dst src off s

/-- `STX_ATOMIC_W_CMPXCHG`: `w0 = cmpxchg32_32(rD + offset, w0, wS)` (rule R400). -/
def execStxAtomicWCmpxchg (dst src : Reg) (off : BitVec 16) (s : State) : StepResult :=
  cmpxchgForm 4 (fun old e => low32 old == low32 e) dst src off s

/-- `STX_ATOMIC_DW_CMPXCHG`: `r0 = cmpxchg_64(rD + offset, r0, rS)` (rule R401). -/
def execStxAtomicDwCmpxchg (dst src : Reg) (off : BitVec 16) (s : State) : StepResult :=
  cmpxchgForm 8 (fun old e => old == e) dst src off s

end Sys2Proof.Machine
end

