-- ==== Sys2Proof/Machine/ByteSwap.lean ====
section
/-!
DEFINITION. Machine/ByteSwap.lean: the byte swaps, `END` of classes `ALU` and `ALU64` (41_byteswap.md).
-/

namespace Sys2Proof.Machine

/-- `ALU_END_TO_LE16`: `rD = le16 rD` (rule R244). -/
def execAluEndToLe16 (dst : Reg) (s : State) : StepResult :=
  swapLow 16 (toLittle s.params.hostEndian bswap16) dst s

/-- `ALU_END_TO_LE32`: `rD = le32 rD` (rule R245). -/
def execAluEndToLe32 (dst : Reg) (s : State) : StepResult :=
  swapLow 32 (toLittle s.params.hostEndian bswap32) dst s

/-- `ALU_END_TO_LE64`: `rD = le64 rD` (rule R246). -/
def execAluEndToLe64 (dst : Reg) (s : State) : StepResult :=
  swapLow 64 (toLittle s.params.hostEndian bswap64) dst s

/-- `ALU_END_TO_BE16`: `rD = be16 rD` (rule R247). -/
def execAluEndToBe16 (dst : Reg) (s : State) : StepResult :=
  swapLow 16 (toBig s.params.hostEndian bswap16) dst s

/-- `ALU_END_TO_BE32`: `rD = be32 rD` (rule R248). -/
def execAluEndToBe32 (dst : Reg) (s : State) : StepResult :=
  swapLow 32 (toBig s.params.hostEndian bswap32) dst s

/-- `ALU_END_TO_BE64`: `rD = be64 rD` (rule R249). -/
def execAluEndToBe64 (dst : Reg) (s : State) : StepResult :=
  swapLow 64 (toBig s.params.hostEndian bswap64) dst s

/-- `ALU64_END_BSWAP16`: `rD = bswap16 rD` (rule R250). -/
def execAlu64EndBswap16 (dst : Reg) (s : State) : StepResult :=
  swapLow 16 bswap16 dst s

/-- `ALU64_END_BSWAP32`: `rD = bswap32 rD` (rule R251). -/
def execAlu64EndBswap32 (dst : Reg) (s : State) : StepResult :=
  swapLow 32 bswap32 dst s

/-- `ALU64_END_BSWAP64`: `rD = bswap64 rD` (rule R252). -/
def execAlu64EndBswap64 (dst : Reg) (s : State) : StepResult :=
  swapLow 64 bswap64 dst s

end Sys2Proof.Machine
end

