-- ==== Sys2Proof/Machine/CallExit.lean ====
section
/-!
DEFINITION. Machine/CallExit.lean: `CALL` in its three forms, and `EXIT` (42_jump.md).
-/

namespace Sys2Proof.Machine

/-- `JMP_CALL_HELPER`: `call imm` (rule R326). -/
def execJmpCallHelper (imm : Word32) (s : State) : StepResult :=
  s.callHelper .static imm

/-- `JMP_CALL_LOCAL`: `call pc+imm` (rule R327). -/
def execJmpCallLocal (imm : Word32) (s : State) : StepResult :=
  if s.params.maxCallDepth ≤ s.depth then s.raise .callDepthExceeded
  else s.checkTarget (s.target imm.toInt) fun t => .next (s.enter t)

/-- `JMP_CALL_BTF`: `call btf imm` (rule R328). -/
def execJmpCallBtf (imm : Word32) (s : State) : StepResult :=
  s.callHelper .btf imm

/-- `JMP_EXIT`: `exit` (rule R329). -/
def execJmpExit (s : State) : StepResult :=
  match s.frames with
  | [] => s.withReg .r0 fun v => s.halt v
  | f :: rest => .next (s.leave f rest)

end Sys2Proof.Machine
end

