-- ==== Sys2Proof/Machine/Imm64.lean ====
section
/-!
DEFINITION. Machine/Imm64.lean: the 64-bit immediate instructions (45_imm64.md).
-/

namespace Sys2Proof.Machine

/-- `map_val(map(id)) + next_imm`, the offset unsigned and the sum modulo 2^64; undefined where the map or its value
region is (rules R413, R419, R423). -/
def mapValueAddr (p : Params) (maps : List (Word32 × Word)) (id next : Word32) : Option Word :=
  match lookupTable maps id with
  | none => none
  | some m =>
    match lookupTable p.mapVal m with
    | none => none
    | some a => some (a + zext64 next)

/-- `LD_IMM64`: `rD = imm64 ll` (rule R417). -/
def execLdImm64 (dst : Reg) (imm nextImm : Word32) (s : State) : StepResult :=
  s.writeWide dst (some (nextImm ++ imm))

/-- `LD_MAP_BY_FD`: `rD = map_by_fd(imm) ll` (rule R418). -/
def execLdMapByFd (dst : Reg) (imm : Word32) (s : State) : StepResult :=
  s.writeWide dst (lookupTable s.params.mapByFd imm)

/-- `LD_MAP_VAL_BY_FD`: `rD = map_val(map_by_fd(imm)) + next_imm ll` (rule R419). -/
def execLdMapValByFd (dst : Reg) (imm nextImm : Word32) (s : State) : StepResult :=
  s.writeWide dst (mapValueAddr s.params s.params.mapByFd imm nextImm)

/-- `LD_VAR_ADDR`: `rD = var_addr(imm) ll` (rule R420). -/
def execLdVarAddr (dst : Reg) (imm : Word32) (s : State) : StepResult :=
  s.writeWide dst (lookupTable s.params.varAddr imm)

/-- `LD_CODE_ADDR`: `rD = code_addr(imm) ll` (rule R421). -/
def execLdCodeAddr (dst : Reg) (imm : Word32) (s : State) : StepResult :=
  s.writeWide dst (lookupTable s.params.codeAddr (s.pc, imm))

/-- `LD_MAP_BY_IDX`: `rD = map_by_idx(imm) ll` (rule R422). -/
def execLdMapByIdx (dst : Reg) (imm : Word32) (s : State) : StepResult :=
  s.writeWide dst (lookupTable s.params.mapByIdx imm)

/-- `LD_MAP_VAL_BY_IDX`: `rD = map_val(map_by_idx(imm)) + next_imm ll` (rule R423). -/
def execLdMapValByIdx (dst : Reg) (imm nextImm : Word32) (s : State) : StepResult :=
  s.writeWide dst (mapValueAddr s.params s.params.mapByIdx imm nextImm)

end Sys2Proof.Machine
end

