-- ==== Sys2Proof/Machine/Jump.lean ====
section
/-!
DEFINITION. Machine/Jump.lean: `JA` and the conditional jumps of class `JMP` (42_jump.md, 42_jump_conditional.md).
-/

namespace Sys2Proof.Machine

/-- `JMP_JA`: `goto +offset` (rule R280). -/
def execJmpJa (off : BitVec 16) (s : State) : StepResult :=
  s.goto (s.target off.toInt)

/-- `JMP_JEQ_K`: `if rD == imm goto +offset` (rule R282). -/
def execJmpJeqK (dst : Reg) (off : BitVec 16) (imm : Word32) (s : State) : StepResult :=
  jump64K condEq dst off imm s

/-- `JMP_JEQ_X`: `if rD == rS goto +offset` (rule R283). -/
def execJmpJeqX (dst src : Reg) (off : BitVec 16) (s : State) : StepResult :=
  jump64X condEq dst src off s

/-- `JMP_JGT_K`: `if rD > imm goto +offset` (rule R286). -/
def execJmpJgtK (dst : Reg) (off : BitVec 16) (imm : Word32) (s : State) : StepResult :=
  jump64K condGt dst off imm s

/-- `JMP_JGT_X`: `if rD > rS goto +offset` (rule R287). -/
def execJmpJgtX (dst src : Reg) (off : BitVec 16) (s : State) : StepResult :=
  jump64X condGt dst src off s

/-- `JMP_JGE_K`: `if rD >= imm goto +offset` (rule R290). -/
def execJmpJgeK (dst : Reg) (off : BitVec 16) (imm : Word32) (s : State) : StepResult :=
  jump64K condGe dst off imm s

/-- `JMP_JGE_X`: `if rD >= rS goto +offset` (rule R291). -/
def execJmpJgeX (dst src : Reg) (off : BitVec 16) (s : State) : StepResult :=
  jump64X condGe dst src off s

/-- `JMP_JSET_K`: `if rD & imm goto +offset` (rule R294). -/
def execJmpJsetK (dst : Reg) (off : BitVec 16) (imm : Word32) (s : State) : StepResult :=
  jump64K condSet dst off imm s

/-- `JMP_JSET_X`: `if rD & rS goto +offset` (rule R295). -/
def execJmpJsetX (dst src : Reg) (off : BitVec 16) (s : State) : StepResult :=
  jump64X condSet dst src off s

/-- `JMP_JNE_K`: `if rD != imm goto +offset` (rule R298). -/
def execJmpJneK (dst : Reg) (off : BitVec 16) (imm : Word32) (s : State) : StepResult :=
  jump64K condNe dst off imm s

/-- `JMP_JNE_X`: `if rD != rS goto +offset` (rule R299). -/
def execJmpJneX (dst src : Reg) (off : BitVec 16) (s : State) : StepResult :=
  jump64X condNe dst src off s

/-- `JMP_JSGT_K`: `if rD s> imm goto +offset` (rule R302). -/
def execJmpJsgtK (dst : Reg) (off : BitVec 16) (imm : Word32) (s : State) : StepResult :=
  jump64K condSgt dst off imm s

/-- `JMP_JSGT_X`: `if rD s> rS goto +offset` (rule R303). -/
def execJmpJsgtX (dst src : Reg) (off : BitVec 16) (s : State) : StepResult :=
  jump64X condSgt dst src off s

/-- `JMP_JSGE_K`: `if rD s>= imm goto +offset` (rule R306). -/
def execJmpJsgeK (dst : Reg) (off : BitVec 16) (imm : Word32) (s : State) : StepResult :=
  jump64K condSge dst off imm s

/-- `JMP_JSGE_X`: `if rD s>= rS goto +offset` (rule R307). -/
def execJmpJsgeX (dst src : Reg) (off : BitVec 16) (s : State) : StepResult :=
  jump64X condSge dst src off s

/-- `JMP_JLT_K`: `if rD < imm goto +offset` (rule R310). -/
def execJmpJltK (dst : Reg) (off : BitVec 16) (imm : Word32) (s : State) : StepResult :=
  jump64K condLt dst off imm s

/-- `JMP_JLT_X`: `if rD < rS goto +offset` (rule R311). -/
def execJmpJltX (dst src : Reg) (off : BitVec 16) (s : State) : StepResult :=
  jump64X condLt dst src off s

/-- `JMP_JLE_K`: `if rD <= imm goto +offset` (rule R314). -/
def execJmpJleK (dst : Reg) (off : BitVec 16) (imm : Word32) (s : State) : StepResult :=
  jump64K condLe dst off imm s

/-- `JMP_JLE_X`: `if rD <= rS goto +offset` (rule R315). -/
def execJmpJleX (dst src : Reg) (off : BitVec 16) (s : State) : StepResult :=
  jump64X condLe dst src off s

/-- `JMP_JSLT_K`: `if rD s< imm goto +offset` (rule R318). -/
def execJmpJsltK (dst : Reg) (off : BitVec 16) (imm : Word32) (s : State) : StepResult :=
  jump64K condSlt dst off imm s

/-- `JMP_JSLT_X`: `if rD s< rS goto +offset` (rule R319). -/
def execJmpJsltX (dst src : Reg) (off : BitVec 16) (s : State) : StepResult :=
  jump64X condSlt dst src off s

/-- `JMP_JSLE_K`: `if rD s<= imm goto +offset` (rule R322). -/
def execJmpJsleK (dst : Reg) (off : BitVec 16) (imm : Word32) (s : State) : StepResult :=
  jump64K condSle dst off imm s

/-- `JMP_JSLE_X`: `if rD s<= rS goto +offset` (rule R323). -/
def execJmpJsleX (dst src : Reg) (off : BitVec 16) (s : State) : StepResult :=
  jump64X condSle dst src off s

end Sys2Proof.Machine
end

