-- ==== Sys2Proof/Machine/Jump32.lean ====
section
/-!
DEFINITION. Machine/Jump32.lean: `JA` and the conditional jumps of class `JMP32` (42_jump.md, 42_jump_conditional.md).
-/

namespace Sys2Proof.Machine

/-- `JMP32_JA`: `gotol +imm` (rule R281). -/
def execJmp32Ja (imm : Word32) (s : State) : StepResult :=
  s.goto (s.target imm.toInt)

/-- `JMP32_JEQ_K`: `if wD == imm goto +offset` (rule R284). -/
def execJmp32JeqK (dst : Reg) (off : BitVec 16) (imm : Word32) (s : State) : StepResult :=
  jump32K condEq dst off imm s

/-- `JMP32_JEQ_X`: `if wD == wS goto +offset` (rule R285). -/
def execJmp32JeqX (dst src : Reg) (off : BitVec 16) (s : State) : StepResult :=
  jump32X condEq dst src off s

/-- `JMP32_JGT_K`: `if wD > imm goto +offset` (rule R288). -/
def execJmp32JgtK (dst : Reg) (off : BitVec 16) (imm : Word32) (s : State) : StepResult :=
  jump32K condGt dst off imm s

/-- `JMP32_JGT_X`: `if wD > wS goto +offset` (rule R289). -/
def execJmp32JgtX (dst src : Reg) (off : BitVec 16) (s : State) : StepResult :=
  jump32X condGt dst src off s

/-- `JMP32_JGE_K`: `if wD >= imm goto +offset` (rule R292). -/
def execJmp32JgeK (dst : Reg) (off : BitVec 16) (imm : Word32) (s : State) : StepResult :=
  jump32K condGe dst off imm s

/-- `JMP32_JGE_X`: `if wD >= wS goto +offset` (rule R293). -/
def execJmp32JgeX (dst src : Reg) (off : BitVec 16) (s : State) : StepResult :=
  jump32X condGe dst src off s

/-- `JMP32_JSET_K`: `if wD & imm goto +offset` (rule R296). -/
def execJmp32JsetK (dst : Reg) (off : BitVec 16) (imm : Word32) (s : State) : StepResult :=
  jump32K condSet dst off imm s

/-- `JMP32_JSET_X`: `if wD & wS goto +offset` (rule R297). -/
def execJmp32JsetX (dst src : Reg) (off : BitVec 16) (s : State) : StepResult :=
  jump32X condSet dst src off s

/-- `JMP32_JNE_K`: `if wD != imm goto +offset` (rule R300). -/
def execJmp32JneK (dst : Reg) (off : BitVec 16) (imm : Word32) (s : State) : StepResult :=
  jump32K condNe dst off imm s

/-- `JMP32_JNE_X`: `if wD != wS goto +offset` (rule R301). -/
def execJmp32JneX (dst src : Reg) (off : BitVec 16) (s : State) : StepResult :=
  jump32X condNe dst src off s

/-- `JMP32_JSGT_K`: `if wD s> imm goto +offset` (rule R304). -/
def execJmp32JsgtK (dst : Reg) (off : BitVec 16) (imm : Word32) (s : State) : StepResult :=
  jump32K condSgt dst off imm s

/-- `JMP32_JSGT_X`: `if wD s> wS goto +offset` (rule R305). -/
def execJmp32JsgtX (dst src : Reg) (off : BitVec 16) (s : State) : StepResult :=
  jump32X condSgt dst src off s

/-- `JMP32_JSGE_K`: `if wD s>= imm goto +offset` (rule R308). -/
def execJmp32JsgeK (dst : Reg) (off : BitVec 16) (imm : Word32) (s : State) : StepResult :=
  jump32K condSge dst off imm s

/-- `JMP32_JSGE_X`: `if wD s>= wS goto +offset` (rule R309). -/
def execJmp32JsgeX (dst src : Reg) (off : BitVec 16) (s : State) : StepResult :=
  jump32X condSge dst src off s

/-- `JMP32_JLT_K`: `if wD < imm goto +offset` (rule R312). -/
def execJmp32JltK (dst : Reg) (off : BitVec 16) (imm : Word32) (s : State) : StepResult :=
  jump32K condLt dst off imm s

/-- `JMP32_JLT_X`: `if wD < wS goto +offset` (rule R313). -/
def execJmp32JltX (dst src : Reg) (off : BitVec 16) (s : State) : StepResult :=
  jump32X condLt dst src off s

/-- `JMP32_JLE_K`: `if wD <= imm goto +offset` (rule R316). -/
def execJmp32JleK (dst : Reg) (off : BitVec 16) (imm : Word32) (s : State) : StepResult :=
  jump32K condLe dst off imm s

/-- `JMP32_JLE_X`: `if wD <= wS goto +offset` (rule R317). -/
def execJmp32JleX (dst src : Reg) (off : BitVec 16) (s : State) : StepResult :=
  jump32X condLe dst src off s

/-- `JMP32_JSLT_K`: `if wD s< imm goto +offset` (rule R320). -/
def execJmp32JsltK (dst : Reg) (off : BitVec 16) (imm : Word32) (s : State) : StepResult :=
  jump32K condSlt dst off imm s

/-- `JMP32_JSLT_X`: `if wD s< wS goto +offset` (rule R321). -/
def execJmp32JsltX (dst src : Reg) (off : BitVec 16) (s : State) : StepResult :=
  jump32X condSlt dst src off s

/-- `JMP32_JSLE_K`: `if wD s<= imm goto +offset` (rule R324). -/
def execJmp32JsleK (dst : Reg) (off : BitVec 16) (imm : Word32) (s : State) : StepResult :=
  jump32K condSle dst off imm s

/-- `JMP32_JSLE_X`: `if wD s<= wS goto +offset` (rule R325). -/
def execJmp32JsleX (dst src : Reg) (off : BitVec 16) (s : State) : StepResult :=
  jump32X condSle dst src off s

end Sys2Proof.Machine
end

