-- ==== Sys2Proof/Machine/LoadStore.lean ====
section
/-!
DEFINITION. Machine/LoadStore.lean: regular and sign-extension loads and stores (43_load_store.md).
-/

namespace Sys2Proof.Machine

/-- `LDX_MEM_W`: `rD = *(u32 *)(rS + offset)` (rule R350). -/
def execLdxMemW (dst src : Reg) (off : BitVec 16) (s : State) : StepResult :=
  loadForm 4 (fun v => v) dst src off s

/-- `LDX_MEM_H`: `rD = *(u16 *)(rS + offset)` (rule R351). -/
def execLdxMemH (dst src : Reg) (off : BitVec 16) (s : State) : StepResult :=
  loadForm 2 (fun v => v) dst src off s

/-- `LDX_MEM_B`: `rD = *(u8 *)(rS + offset)` (rule R352). -/
def execLdxMemB (dst src : Reg) (off : BitVec 16) (s : State) : StepResult :=
  loadForm 1 (fun v => v) dst src off s

/-- `LDX_MEM_DW`: `rD = *(u64 *)(rS + offset)` (rule R353). -/
def execLdxMemDw (dst src : Reg) (off : BitVec 16) (s : State) : StepResult :=
  loadForm 8 (fun v => v) dst src off s

/-- `LDX_MEMSX_W`: `rD = *(s32 *)(rS + offset)` (rule R354). -/
def execLdxMemsxW (dst src : Reg) (off : BitVec 16) (s : State) : StepResult :=
  loadForm 4 (signExtendLow 32 64) dst src off s

/-- `LDX_MEMSX_H`: `rD = *(s16 *)(rS + offset)` (rule R355). -/
def execLdxMemsxH (dst src : Reg) (off : BitVec 16) (s : State) : StepResult :=
  loadForm 2 (signExtendLow 16 64) dst src off s

/-- `LDX_MEMSX_B`: `rD = *(s8 *)(rS + offset)` (rule R356). -/
def execLdxMemsxB (dst src : Reg) (off : BitVec 16) (s : State) : StepResult :=
  loadForm 1 (signExtendLow 8 64) dst src off s

/-- `ST_MEM_W`: `*(u32 *)(rD + offset) = imm` (rule R357). -/
def execStMemW (dst : Reg) (off : BitVec 16) (imm : Word32) (s : State) : StepResult :=
  storeImm 4 dst off imm s

/-- `ST_MEM_H`: `*(u16 *)(rD + offset) = imm` (rule R358). -/
def execStMemH (dst : Reg) (off : BitVec 16) (imm : Word32) (s : State) : StepResult :=
  storeImm 2 dst off imm s

/-- `ST_MEM_B`: `*(u8 *)(rD + offset) = imm` (rule R359). -/
def execStMemB (dst : Reg) (off : BitVec 16) (imm : Word32) (s : State) : StepResult :=
  storeImm 1 dst off imm s

/-- `ST_MEM_DW`: `*(u64 *)(rD + offset) = imm` (rule R360). -/
def execStMemDw (dst : Reg) (off : BitVec 16) (imm : Word32) (s : State) : StepResult :=
  storeImm 8 dst off imm s

/-- `STX_MEM_W`: `*(u32 *)(rD + offset) = rS` (rule R361). -/
def execStxMemW (dst src : Reg) (off : BitVec 16) (s : State) : StepResult :=
  storeReg 4 dst src off s

/-- `STX_MEM_H`: `*(u16 *)(rD + offset) = rS` (rule R362). -/
def execStxMemH (dst src : Reg) (off : BitVec 16) (s : State) : StepResult :=
  storeReg 2 dst src off s

/-- `STX_MEM_B`: `*(u8 *)(rD + offset) = rS` (rule R363). -/
def execStxMemB (dst src : Reg) (off : BitVec 16) (s : State) : StepResult :=
  storeReg 1 dst src off s

/-- `STX_MEM_DW`: `*(u64 *)(rD + offset) = rS` (rule R364). -/
def execStxMemDw (dst src : Reg) (off : BitVec 16) (s : State) : StepResult :=
  storeReg 8 dst src off s

end Sys2Proof.Machine
end

