-- ==== Sys2Proof/Machine/Packet.lean ====
section
/-!
DEFINITION. Machine/Packet.lean: the legacy packet access instructions (46_legacy_packet.md).
Under `PACKET` = `linux` they do what rule R432 takes from general knowledge.
-/

namespace Sys2Proof.Machine

/-- `LD_ABS_W`: `r0 = *(u32 *)skb[imm]` (rule R435). -/
def execLdAbsW (imm : Word32) (s : State) : StepResult :=
  packetAbs 4 imm s

/-- `LD_ABS_H`: `r0 = *(u16 *)skb[imm]` (rule R436). -/
def execLdAbsH (imm : Word32) (s : State) : StepResult :=
  packetAbs 2 imm s

/-- `LD_ABS_B`: `r0 = *(u8 *)skb[imm]` (rule R437). -/
def execLdAbsB (imm : Word32) (s : State) : StepResult :=
  packetAbs 1 imm s

/-- `LD_IND_W`: `r0 = *(u32 *)skb[rS + imm]` (rule R438). -/
def execLdIndW (src : Reg) (imm : Word32) (s : State) : StepResult :=
  packetInd 4 src imm s

/-- `LD_IND_H`: `r0 = *(u16 *)skb[rS + imm]` (rule R439). -/
def execLdIndH (src : Reg) (imm : Word32) (s : State) : StepResult :=
  packetInd 2 src imm s

/-- `LD_IND_B`: `r0 = *(u8 *)skb[rS + imm]` (rule R440). -/
def execLdIndB (src : Reg) (imm : Word32) (s : State) : StepResult :=
  packetInd 1 src imm s

end Sys2Proof.Machine
end

