-- ==== Sys2Proof/Machine/Dispatch.lean ====
section
/-!
DEFINITION. Machine/Dispatch.lean: the meaning of every instruction, one arm for each row of spec/opcode_table.json.
-/

namespace Sys2Proof.Machine

/-- The effect of an instruction that has been decoded at the program counter (rule R497). -/
def exec (i : Instr) (s : State) : Host.Outcome State Fault Refusal :=
  match i with
  | .aluAddK dst imm => Sys2Proof.Machine.execAluAddK dst imm s
  | .aluAddX dst src => Sys2Proof.Machine.execAluAddX dst src s
  | .alu64AddK dst imm => Sys2Proof.Machine.execAlu64AddK dst imm s
  | .alu64AddX dst src => Sys2Proof.Machine.execAlu64AddX dst src s
  | .aluSubK dst imm => Sys2Proof.Machine.execAluSubK dst imm s
  | .aluSubX dst src => Sys2Proof.Machine.execAluSubX dst src s
  | .alu64SubK dst imm => Sys2Proof.Machine.execAlu64SubK dst imm s
  | .alu64SubX dst src => Sys2Proof.Machine.execAlu64SubX dst src s
  | .aluMulK dst imm => Sys2Proof.Machine.execAluMulK dst imm s
  | .aluMulX dst src => Sys2Proof.Machine.execAluMulX dst src s
  | .alu64MulK dst imm => Sys2Proof.Machine.execAlu64MulK dst imm s
  | .alu64MulX dst src => Sys2Proof.Machine.execAlu64MulX dst src s
  | .aluDivK dst imm => Sys2Proof.Machine.execAluDivK dst imm s
  | .aluDivX dst src => Sys2Proof.Machine.execAluDivX dst src s
  | .alu64DivK dst imm => Sys2Proof.Machine.execAlu64DivK dst imm s
  | .alu64DivX dst src => Sys2Proof.Machine.execAlu64DivX dst src s
  | .aluSdivK dst imm => Sys2Proof.Machine.execAluSdivK dst imm s
  | .aluSdivX dst src => Sys2Proof.Machine.execAluSdivX dst src s
  | .alu64SdivK dst imm => Sys2Proof.Machine.execAlu64SdivK dst imm s
  | .alu64SdivX dst src => Sys2Proof.Machine.execAlu64SdivX dst src s
  | .aluOrK dst imm => Sys2Proof.Machine.execAluOrK dst imm s
  | .aluOrX dst src => Sys2Proof.Machine.execAluOrX dst src s
  | .alu64OrK dst imm => Sys2Proof.Machine.execAlu64OrK dst imm s
  | .alu64OrX dst src => Sys2Proof.Machine.execAlu64OrX dst src s
  | .aluAndK dst imm => Sys2Proof.Machine.execAluAndK dst imm s
  | .aluAndX dst src => Sys2Proof.Machine.execAluAndX dst src s
  | .alu64AndK dst imm => Sys2Proof.Machine.execAlu64AndK dst imm s
  | .alu64AndX dst src => Sys2Proof.Machine.execAlu64AndX dst src s
  | .aluLshK dst imm => Sys2Proof.Machine.execAluLshK dst imm s
  | .aluLshX dst src => Sys2Proof.Machine.execAluLshX dst src s
  | .alu64LshK dst imm => Sys2Proof.Machine.execAlu64LshK dst imm s
  | .alu64LshX dst src => Sys2Proof.Machine.execAlu64LshX dst src s
  | .aluRshK dst imm => Sys2Proof.Machine.execAluRshK dst imm s
  | .aluRshX dst src => Sys2Proof.Machine.execAluRshX dst src s
  | .alu64RshK dst imm => Sys2Proof.Machine.execAlu64RshK dst imm s
  | .alu64RshX dst src => Sys2Proof.Machine.execAlu64RshX dst src s
  | .aluNegK dst => Sys2Proof.Machine.execAluNegK dst s
  | .alu64NegK dst => Sys2Proof.Machine.execAlu64NegK dst s
  | .aluModK dst imm => Sys2Proof.Machine.execAluModK dst imm s
  | .aluModX dst src => Sys2Proof.Machine.execAluModX dst src s
  | .alu64ModK dst imm => Sys2Proof.Machine.execAlu64ModK dst imm s
  | .alu64ModX dst src => Sys2Proof.Machine.execAlu64ModX dst src s
  | .aluSmodK dst imm => Sys2Proof.Machine.execAluSmodK dst imm s
  | .aluSmodX dst src => Sys2Proof.Machine.execAluSmodX dst src s
  | .alu64SmodK dst imm => Sys2Proof.Machine.execAlu64SmodK dst imm s
  | .alu64SmodX dst src => Sys2Proof.Machine.execAlu64SmodX dst src s
  | .aluXorK dst imm => Sys2Proof.Machine.execAluXorK dst imm s
  | .aluXorX dst src => Sys2Proof.Machine.execAluXorX dst src s
  | .alu64XorK dst imm => Sys2Proof.Machine.execAlu64XorK dst imm s
  | .alu64XorX dst src => Sys2Proof.Machine.execAlu64XorX dst src s
  | .aluMovK dst imm => Sys2Proof.Machine.execAluMovK dst imm s
  | .aluMovX dst src => Sys2Proof.Machine.execAluMovX dst src s
  | .alu64MovK dst imm => Sys2Proof.Machine.execAlu64MovK dst imm s
  | .alu64MovX dst src => Sys2Proof.Machine.execAlu64MovX dst src s
  | .aluMovsx8X dst src => Sys2Proof.Machine.execAluMovsx8X dst src s
  | .aluMovsx16X dst src => Sys2Proof.Machine.execAluMovsx16X dst src s
  | .alu64Movsx8X dst src => Sys2Proof.Machine.execAlu64Movsx8X dst src s
  | .alu64Movsx16X dst src => Sys2Proof.Machine.execAlu64Movsx16X dst src s
  | .alu64Movsx32X dst src => Sys2Proof.Machine.execAlu64Movsx32X dst src s
  | .aluArshK dst imm => Sys2Proof.Machine.execAluArshK dst imm s
  | .aluArshX dst src => Sys2Proof.Machine.execAluArshX dst src s
  | .alu64ArshK dst imm => Sys2Proof.Machine.execAlu64ArshK dst imm s
  | .alu64ArshX dst src => Sys2Proof.Machine.execAlu64ArshX dst src s
  | .aluEndToLe16 dst => Sys2Proof.Machine.execAluEndToLe16 dst s
  | .aluEndToLe32 dst => Sys2Proof.Machine.execAluEndToLe32 dst s
  | .aluEndToLe64 dst => Sys2Proof.Machine.execAluEndToLe64 dst s
  | .aluEndToBe16 dst => Sys2Proof.Machine.execAluEndToBe16 dst s
  | .aluEndToBe32 dst => Sys2Proof.Machine.execAluEndToBe32 dst s
  | .aluEndToBe64 dst => Sys2Proof.Machine.execAluEndToBe64 dst s
  | .alu64EndBswap16 dst => Sys2Proof.Machine.execAlu64EndBswap16 dst s
  | .alu64EndBswap32 dst => Sys2Proof.Machine.execAlu64EndBswap32 dst s
  | .alu64EndBswap64 dst => Sys2Proof.Machine.execAlu64EndBswap64 dst s
  | .jmpJa off => Sys2Proof.Machine.execJmpJa off s
  | .jmp32Ja imm => Sys2Proof.Machine.execJmp32Ja imm s
  | .jmpJeqK dst off imm => Sys2Proof.Machine.execJmpJeqK dst off imm s
  | .jmpJeqX dst src off => Sys2Proof.Machine.execJmpJeqX dst src off s
  | .jmp32JeqK dst off imm => Sys2Proof.Machine.execJmp32JeqK dst off imm s
  | .jmp32JeqX dst src off => Sys2Proof.Machine.execJmp32JeqX dst src off s
  | .jmpJgtK dst off imm => Sys2Proof.Machine.execJmpJgtK dst off imm s
  | .jmpJgtX dst src off => Sys2Proof.Machine.execJmpJgtX dst src off s
  | .jmp32JgtK dst off imm => Sys2Proof.Machine.execJmp32JgtK dst off imm s
  | .jmp32JgtX dst src off => Sys2Proof.Machine.execJmp32JgtX dst src off s
  | .jmpJgeK dst off imm => Sys2Proof.Machine.execJmpJgeK dst off imm s
  | .jmpJgeX dst src off => Sys2Proof.Machine.execJmpJgeX dst src off s
  | .jmp32JgeK dst off imm => Sys2Proof.Machine.execJmp32JgeK dst off imm s
  | .jmp32JgeX dst src off => Sys2Proof.Machine.execJmp32JgeX dst src off s
  | .jmpJsetK dst off imm => Sys2Proof.Machine.execJmpJsetK dst off imm s
  | .jmpJsetX dst src off => Sys2Proof.Machine.execJmpJsetX dst src off s
  | .jmp32JsetK dst off imm => Sys2Proof.Machine.execJmp32JsetK dst off imm s
  | .jmp32JsetX dst src off => Sys2Proof.Machine.execJmp32JsetX dst src off s
  | .jmpJneK dst off imm => Sys2Proof.Machine.execJmpJneK dst off imm s
  | .jmpJneX dst src off => Sys2Proof.Machine.execJmpJneX dst src off s
  | .jmp32JneK dst off imm => Sys2Proof.Machine.execJmp32JneK dst off imm s
  | .jmp32JneX dst src off => Sys2Proof.Machine.execJmp32JneX dst src off s
  | .jmpJsgtK dst off imm => Sys2Proof.Machine.execJmpJsgtK dst off imm s
  | .jmpJsgtX dst src off => Sys2Proof.Machine.execJmpJsgtX dst src off s
  | .jmp32JsgtK dst off imm => Sys2Proof.Machine.execJmp32JsgtK dst off imm s
  | .jmp32JsgtX dst src off => Sys2Proof.Machine.execJmp32JsgtX dst src off s
  | .jmpJsgeK dst off imm => Sys2Proof.Machine.execJmpJsgeK dst off imm s
  | .jmpJsgeX dst src off => Sys2Proof.Machine.execJmpJsgeX dst src off s
  | .jmp32JsgeK dst off imm => Sys2Proof.Machine.execJmp32JsgeK dst off imm s
  | .jmp32JsgeX dst src off => Sys2Proof.Machine.execJmp32JsgeX dst src off s
  | .jmpJltK dst off imm => Sys2Proof.Machine.execJmpJltK dst off imm s
  | .jmpJltX dst src off => Sys2Proof.Machine.execJmpJltX dst src off s
  | .jmp32JltK dst off imm => Sys2Proof.Machine.execJmp32JltK dst off imm s
  | .jmp32JltX dst src off => Sys2Proof.Machine.execJmp32JltX dst src off s
  | .jmpJleK dst off imm => Sys2Proof.Machine.execJmpJleK dst off imm s
  | .jmpJleX dst src off => Sys2Proof.Machine.execJmpJleX dst src off s
  | .jmp32JleK dst off imm => Sys2Proof.Machine.execJmp32JleK dst off imm s
  | .jmp32JleX dst src off => Sys2Proof.Machine.execJmp32JleX dst src off s
  | .jmpJsltK dst off imm => Sys2Proof.Machine.execJmpJsltK dst off imm s
  | .jmpJsltX dst src off => Sys2Proof.Machine.execJmpJsltX dst src off s
  | .jmp32JsltK dst off imm => Sys2Proof.Machine.execJmp32JsltK dst off imm s
  | .jmp32JsltX dst src off => Sys2Proof.Machine.execJmp32JsltX dst src off s
  | .jmpJsleK dst off imm => Sys2Proof.Machine.execJmpJsleK dst off imm s
  | .jmpJsleX dst src off => Sys2Proof.Machine.execJmpJsleX dst src off s
  | .jmp32JsleK dst off imm => Sys2Proof.Machine.execJmp32JsleK dst off imm s
  | .jmp32JsleX dst src off => Sys2Proof.Machine.execJmp32JsleX dst src off s
  | .jmpCallHelper imm => Sys2Proof.Machine.execJmpCallHelper imm s
  | .jmpCallLocal imm => Sys2Proof.Machine.execJmpCallLocal imm s
  | .jmpCallBtf imm => Sys2Proof.Machine.execJmpCallBtf imm s
  | .jmpExit => Sys2Proof.Machine.execJmpExit s
  | .ldxMemW dst src off => Sys2Proof.Machine.execLdxMemW dst src off s
  | .ldxMemH dst src off => Sys2Proof.Machine.execLdxMemH dst src off s
  | .ldxMemB dst src off => Sys2Proof.Machine.execLdxMemB dst src off s
  | .ldxMemDw dst src off => Sys2Proof.Machine.execLdxMemDw dst src off s
  | .ldxMemsxW dst src off => Sys2Proof.Machine.execLdxMemsxW dst src off s
  | .ldxMemsxH dst src off => Sys2Proof.Machine.execLdxMemsxH dst src off s
  | .ldxMemsxB dst src off => Sys2Proof.Machine.execLdxMemsxB dst src off s
  | .stMemW dst off imm => Sys2Proof.Machine.execStMemW dst off imm s
  | .stMemH dst off imm => Sys2Proof.Machine.execStMemH dst off imm s
  | .stMemB dst off imm => Sys2Proof.Machine.execStMemB dst off imm s
  | .stMemDw dst off imm => Sys2Proof.Machine.execStMemDw dst off imm s
  | .stxMemW dst src off => Sys2Proof.Machine.execStxMemW dst src off s
  | .stxMemH dst src off => Sys2Proof.Machine.execStxMemH dst src off s
  | .stxMemB dst src off => Sys2Proof.Machine.execStxMemB dst src off s
  | .stxMemDw dst src off => Sys2Proof.Machine.execStxMemDw dst src off s
  | .stxAtomicWAdd dst src off => Sys2Proof.Machine.execStxAtomicWAdd dst src off s
  | .stxAtomicDwAdd dst src off => Sys2Proof.Machine.execStxAtomicDwAdd dst src off s
  | .stxAtomicWOr dst src off => Sys2Proof.Machine.execStxAtomicWOr dst src off s
  | .stxAtomicDwOr dst src off => Sys2Proof.Machine.execStxAtomicDwOr dst src off s
  | .stxAtomicWAnd dst src off => Sys2Proof.Machine.execStxAtomicWAnd dst src off s
  | .stxAtomicDwAnd dst src off => Sys2Proof.Machine.execStxAtomicDwAnd dst src off s
  | .stxAtomicWXor dst src off => Sys2Proof.Machine.execStxAtomicWXor dst src off s
  | .stxAtomicDwXor dst src off => Sys2Proof.Machine.execStxAtomicDwXor dst src off s
  | .stxAtomicWAddFetch dst src off => Sys2Proof.Machine.execStxAtomicWAddFetch dst src off s
  | .stxAtomicDwAddFetch dst src off => Sys2Proof.Machine.execStxAtomicDwAddFetch dst src off s
  | .stxAtomicWOrFetch dst src off => Sys2Proof.Machine.execStxAtomicWOrFetch dst src off s
  | .stxAtomicDwOrFetch dst src off => Sys2Proof.Machine.execStxAtomicDwOrFetch dst src off s
  | .stxAtomicWAndFetch dst src off => Sys2Proof.Machine.execStxAtomicWAndFetch dst src off s
  | .stxAtomicDwAndFetch dst src off => Sys2Proof.Machine.execStxAtomicDwAndFetch dst src off s
  | .stxAtomicWXorFetch dst src off => Sys2Proof.Machine.execStxAtomicWXorFetch dst src off s
  | .stxAtomicDwXorFetch dst src off => Sys2Proof.Machine.execStxAtomicDwXorFetch dst src off s
  | .stxAtomicWXchg dst src off => Sys2Proof.Machine.execStxAtomicWXchg dst src off s
  | .stxAtomicDwXchg dst src off => Sys2Proof.Machine.execStxAtomicDwXchg dst src off s
  | .stxAtomicWCmpxchg dst src off => Sys2Proof.Machine.execStxAtomicWCmpxchg dst src off s
  | .stxAtomicDwCmpxchg dst src off => Sys2Proof.Machine.execStxAtomicDwCmpxchg dst src off s
  | .ldImm64 dst imm nextImm => Sys2Proof.Machine.execLdImm64 dst imm nextImm s
  | .ldMapByFd dst imm => Sys2Proof.Machine.execLdMapByFd dst imm s
  | .ldMapValByFd dst imm nextImm => Sys2Proof.Machine.execLdMapValByFd dst imm nextImm s
  | .ldVarAddr dst imm => Sys2Proof.Machine.execLdVarAddr dst imm s
  | .ldCodeAddr dst imm => Sys2Proof.Machine.execLdCodeAddr dst imm s
  | .ldMapByIdx dst imm => Sys2Proof.Machine.execLdMapByIdx dst imm s
  | .ldMapValByIdx dst imm nextImm => Sys2Proof.Machine.execLdMapValByIdx dst imm nextImm s
  | .ldAbsW imm => Sys2Proof.Machine.execLdAbsW imm s
  | .ldAbsH imm => Sys2Proof.Machine.execLdAbsH imm s
  | .ldAbsB imm => Sys2Proof.Machine.execLdAbsB imm s
  | .ldIndW src imm => Sys2Proof.Machine.execLdIndW src imm s
  | .ldIndH src imm => Sys2Proof.Machine.execLdIndH src imm s
  | .ldIndB src imm => Sys2Proof.Machine.execLdIndB src imm s

end Sys2Proof.Machine
end

