-- ==== Sys2Proof/Machine/Step.lean ====
section
/-!
DEFINITION. Machine/Step.lean: one step of the machine (rule R497). How a program comes to run: from `State.reset` with
nothing placed no instruction runs, the first step raises `FetchOutOfRange(0)`; a program is handed to the machine from
outside, by `launch` or `State.entry` (assumption 6), and `withFetchWord` stands for that.
-/

namespace Sys2Proof.Machine

/-- One step: only a running machine steps; the instruction at the program counter is decoded, which may raise, and
executed (rules R46, R450, R494, R497). -/
def step (s : State) : Host.Outcome State Fault Refusal :=
  match s.status with
  | .halted v => .fault (.afterHalt v)
  | .faulted r => .fault (.afterFault r)
  | .running =>
    match decodeAt s s.pc with
    | .error r => s.raise r
    | .ok i => exec i s

/-- The state with the instruction of a table word placed where the next step fetches: the program gets the
instruction's slot and the slot after it, laid out for the host, and the machine runs. -/
def State.withFetchWord (s : State) (nbits w : Nat) : State :=
  { s with
    status := .running
    program := placeSlots s.program s.pc (tableFirst s.params.hostEndian nbits w)
      (tableSecond s.params.hostEndian nbits w) }

end Sys2Proof.Machine
end

