-- ==== Sys2Proof/Machine/Launch.lean ====
section
/-!
DEFINITION. Machine/Launch.lean: what the platform does before the first step (rules R490 to R493): it refuses a program
or a choice of parameters that has no behaviour, and else builds the entry state.
-/

namespace Sys2Proof.Machine

/-- `GROUPS` contains `base32` and is closed under the three inclusions (rule R2). -/
def groupsClosed (p : Params) : Bool :=
  p.supports .base32 && (!p.supports .base64 || p.supports .base32) &&
    (!p.supports .atomic64 || p.supports .atomic32) && (!p.supports .divmul64 || p.supports .divmul32)

/-- The program has at most `MAX_SLOTS` slots, when that is set (rule R492). -/
def fitsMaxSlots (p : Params) (program : List Slot) : Bool :=
  match p.maxSlots with
  | none => true
  | some n => decide (program.length ≤ n)

/-- Every depth up to `MAX_CALL_DEPTH` has a frame of `STACK_SIZE` bytes below its R10, the frames are pairwise disjoint,
and no region and no slot at a code address overlaps one (rule R493). -/
def stackLayoutOk (p : Params) : Bool :=
  let depths := List.range (p.maxCallDepth + 1)
  decide (p.maxCallDepth < p.framePointers.length) &&
    depths.all fun d =>
      decide (p.stackSize ≤ p.frameTop d) &&
        depths.all (fun e => d == e || !p.touchesFrame e (p.frameBase d) p.stackSize) &&
        (p.regions.all fun r => !p.touchesFrame d r.base r.size) &&
        p.codeAddr.all fun e => !p.touchesFrame d e.2.toNat 8

/-- The launch memory: the bytes that the platform placed, but none in a stack frame (rules R68, R490). -/
def launchMemory (p : Params) (contents : List (Word × Byte)) : Memory :=
  contents.foldl (fun m c => if p.stackByte c.1.toNat then m else m.write c.1.toNat c.2) []

/-- The start of a run: refused before it, or the entry state (rules R2, R490, R492, R493). -/
def launch (p : Params) (program : List Slot) (contents : List (Word × Byte)) : StepResult :=
  if groupsClosed p then
    if fitsMaxSlots p program then
      if stackLayoutOk p then .next (State.entry p program (launchMemory p contents)) else .refused .badStackLayout
    else .refused .programTooLong
  else .refused .groupsNotClosed

end Sys2Proof.Machine
end

