-- ==== Sys2Proof/Safety.lean ====
section
/-!
DEFINITION. Safety.lean: the invariant that every step keeps, what a run is, what counts as a run
without a fault, and which registers an instruction reads.
-/

namespace Sys2Proof.Machine

/-- Each saved frame holds the frame pointer of the depth it returns to (rules R36, R276). -/
def savedFramePointers (p : Params) : List Frame → Prop
  | [] => True
  | f :: rest => f.r10 = some (p.framePointer rest.length) ∧ savedFramePointers p rest

/-- The invariant of a machine. -/
structure State.Inv (s : State) : Prop where
  /-- data memory has its canonical form -/
  memory : Memory.wf s.mem
  /-- the call depth is at most `MAX_CALL_DEPTH` (rule R275) -/
  depthBound : s.depth ≤ s.params.maxCallDepth
  /-- a byte of a dead stack frame holds no value, where no helper can have left one there (rules R68, R273) -/
  deadFrames : s.params.helpers = [] → s.params.btfHelpers = [] →
    ∀ a, s.params.touchesDeadFrame s.depth a 1 = true → s.mem.read a = none
  /-- while R10 is read-only it holds the frame pointer of the call depth (rules R35, R36) -/
  framePointer : s.params.r10ReadOnly = true →
    s.reg .r10 = some (s.params.framePointer s.depth) ∧ savedFramePointers s.params s.frames
  /-- the program counter and every return slot are at the start of an instruction, not at a second slot (rules R112,
  R278) -/
  startsInstruction : isSecondSlot s.program s.pc = false ∧ ∀ f ∈ s.frames, isSecondSlot s.program f.ret = false

/-- A state that a run from here reaches: between any two steps of the machine the other agents may change shared bytes,
any number of times and one byte at a time (rules R70, R81, R497). -/
inductive State.Reaches (s : State) : State → Prop where
  | refl : State.Reaches s s
  | stepped (t u : State) : State.Reaches s t → step t = .next u → State.Reaches s u
  | environment (t : State) (changes : List (Word × Byte)) : State.Reaches s t → t.status = .running →
    State.Reaches s (t.envStep changes)

/-- No state that a run from here reaches has faulted, whatever other agents do to shared memory: what a claim that a
program is safe says (rule R450). -/
def State.FaultFree (s : State) : Prop := ∀ t, s.Reaches t → ∀ r, t.status ≠ .faulted r

end Sys2Proof.Machine

namespace Sys2Proof

/-- The registers that an instruction reads before anything else it does, in the order of the reads (rule R452). A helper
`CALL` reads its arguments after the lookup, and `EXIT` reads R0 in the outermost function only; neither stands here. -/
def Instr.reads : Instr → List Reg
  | .aluAddK dst _ | .alu64AddK dst _ | .aluSubK dst _ | .alu64SubK dst _ | .aluMulK dst _ | .alu64MulK dst _
  | .aluDivK dst _ | .alu64DivK dst _ | .aluSdivK dst _ | .alu64SdivK dst _ | .aluOrK dst _ | .alu64OrK dst _
  | .aluAndK dst _ | .alu64AndK dst _ | .aluLshK dst _ | .alu64LshK dst _ | .aluRshK dst _ | .alu64RshK dst _
  | .aluNegK dst | .alu64NegK dst | .aluModK dst _ | .alu64ModK dst _ | .aluSmodK dst _ | .alu64SmodK dst _
  | .aluXorK dst _ | .alu64XorK dst _ | .aluArshK dst _ | .alu64ArshK dst _ | .aluEndToLe16 dst | .aluEndToLe32 dst
  | .aluEndToLe64 dst | .aluEndToBe16 dst | .aluEndToBe32 dst | .aluEndToBe64 dst | .alu64EndBswap16 dst
  | .alu64EndBswap32 dst | .alu64EndBswap64 dst | .jmpJeqK dst _ _ | .jmp32JeqK dst _ _ | .jmpJgtK dst _ _
  | .jmp32JgtK dst _ _ | .jmpJgeK dst _ _ | .jmp32JgeK dst _ _ | .jmpJsetK dst _ _ | .jmp32JsetK dst _ _
  | .jmpJneK dst _ _ | .jmp32JneK dst _ _ | .jmpJsgtK dst _ _ | .jmp32JsgtK dst _ _ | .jmpJsgeK dst _ _
  | .jmp32JsgeK dst _ _ | .jmpJltK dst _ _ | .jmp32JltK dst _ _ | .jmpJleK dst _ _ | .jmp32JleK dst _ _
  | .jmpJsltK dst _ _ | .jmp32JsltK dst _ _ | .jmpJsleK dst _ _ | .jmp32JsleK dst _ _ | .stMemW dst _ _
  | .stMemH dst _ _ | .stMemB dst _ _ | .stMemDw dst _ _ => [dst]
  | .aluAddX dst src | .alu64AddX dst src | .aluSubX dst src | .alu64SubX dst src | .aluMulX dst src
  | .alu64MulX dst src | .aluDivX dst src | .alu64DivX dst src | .aluSdivX dst src | .alu64SdivX dst src
  | .aluOrX dst src | .alu64OrX dst src | .aluAndX dst src | .alu64AndX dst src | .aluLshX dst src
  | .alu64LshX dst src | .aluRshX dst src | .alu64RshX dst src | .aluModX dst src | .alu64ModX dst src
  | .aluSmodX dst src | .alu64SmodX dst src | .aluXorX dst src | .alu64XorX dst src | .aluArshX dst src
  | .alu64ArshX dst src | .jmpJeqX dst src _ | .jmp32JeqX dst src _ | .jmpJgtX dst src _ | .jmp32JgtX dst src _
  | .jmpJgeX dst src _ | .jmp32JgeX dst src _ | .jmpJsetX dst src _ | .jmp32JsetX dst src _ | .jmpJneX dst src _
  | .jmp32JneX dst src _ | .jmpJsgtX dst src _ | .jmp32JsgtX dst src _ | .jmpJsgeX dst src _ | .jmp32JsgeX dst src _
  | .jmpJltX dst src _ | .jmp32JltX dst src _ | .jmpJleX dst src _ | .jmp32JleX dst src _ | .jmpJsltX dst src _
  | .jmp32JsltX dst src _ | .jmpJsleX dst src _ | .jmp32JsleX dst src _ | .stxMemW dst src _ | .stxMemH dst src _
  | .stxMemB dst src _ | .stxMemDw dst src _ | .stxAtomicWAdd dst src _ | .stxAtomicDwAdd dst src _
  | .stxAtomicWOr dst src _ | .stxAtomicDwOr dst src _ | .stxAtomicWAnd dst src _ | .stxAtomicDwAnd dst src _
  | .stxAtomicWXor dst src _ | .stxAtomicDwXor dst src _ | .stxAtomicWAddFetch dst src _
  | .stxAtomicDwAddFetch dst src _ | .stxAtomicWOrFetch dst src _ | .stxAtomicDwOrFetch dst src _
  | .stxAtomicWAndFetch dst src _ | .stxAtomicDwAndFetch dst src _ | .stxAtomicWXorFetch dst src _
  | .stxAtomicDwXorFetch dst src _ | .stxAtomicWXchg dst src _ | .stxAtomicDwXchg dst src _ => [dst, src]
  | .stxAtomicWCmpxchg dst src _ | .stxAtomicDwCmpxchg dst src _ => [dst, src, .r0]
  | .aluMovX _ src | .alu64MovX _ src | .aluMovsx8X _ src | .aluMovsx16X _ src | .alu64Movsx8X _ src
  | .alu64Movsx16X _ src | .alu64Movsx32X _ src | .ldxMemW _ src _ | .ldxMemH _ src _ | .ldxMemB _ src _
  | .ldxMemDw _ src _ | .ldxMemsxW _ src _ | .ldxMemsxH _ src _ | .ldxMemsxB _ src _ => [src]
  | .ldAbsW _ | .ldAbsH _ | .ldAbsB _ => [.r6]
  | .ldIndW src _ | .ldIndH src _ | .ldIndB src _ => [src, .r6]
  | .aluMovK _ _ | .alu64MovK _ _ | .jmpJa _ | .jmp32Ja _ | .jmpCallHelper _ | .jmpCallLocal _ | .jmpCallBtf _
  | .jmpExit | .ldImm64 _ _ _ | .ldMapByFd _ _ | .ldMapValByFd _ _ _ | .ldVarAddr _ _ | .ldCodeAddr _ _
  | .ldMapByIdx _ _ | .ldMapValByIdx _ _ _ => []

end Sys2Proof
end

