-- ==== Sys2Proof/WellFormed.lean ====
section
/-!
DEFINITION. WellFormed.lean: which instructions a platform accepts. The types of the operands already say what the fields
can hold: a register is one of R0 to R10, an immediate has 32 bits, an offset 16, and an unused field has no place
(rules R105, R128, R129). Two checks depend on the platform.
-/

namespace Sys2Proof

/-- The instruction's conformance group is supported (rule R131). -/
abbrev Instr.GroupSupported (p : Params) (i : Instr) : Prop := p.supports i.group = true

/-- The instruction does not write R10 while R10 is read-only (rule R35). -/
abbrev Instr.KeepsR10 (p : Params) (i : Instr) : Prop := p.r10ReadOnly = true → i.writtenReg ≠ some .r10

/-- A platform with these parameters accepts the instruction. -/
abbrev Instr.WellFormed (p : Params) (i : Instr) : Prop := i.GroupSupported p ∧ i.KeepsR10 p

end Sys2Proof
end

