-- ==== Sys2Proof/Certificates/Slice0/Obligations.lean ====
section
/-!
DEFINITION. Certificates/Slice0/Obligations.lean: the statements for the provers, from the numbered rules of the spec.
Before them stand the words they are stated in, over plain integers where the model computes on bit patterns. Results are
stated as whole next states: what the record update does not name is unchanged, so each is a frame statement too.
-/

namespace Sys2Proof.Expected

/-- The number that bytes stand for in the byte order of the host (rules R61, R62). -/
def hostNumber (e : Endian) (bs : List Byte) : Nat :=
  match e with
  | .little => bs.foldr (fun b n => b.toNat + 256 * n) 0
  | .big => bs.foldl (fun n b => 256 * n + b.toNat) 0

/-- Byte `k`, counted from the lowest address, of the `n` bytes of a number in the byte order of the host (rule R63). -/
def hostByte (e : Endian) (n v k : Nat) : Byte :=
  match e with
  | .little => BitVec.ofNat 8 (v / 256 ^ k)
  | .big => BitVec.ofNat 8 (v / 256 ^ (n - 1 - k))

/-- The bytes from an address on hold the given values. -/
def holds (m : Machine.Memory) (addr : Word) (bs : List Byte) : Prop :=
  ∀ k, k < bs.length → m.read (addr.toNat + k) = bs[k]?

/-- The `n` bytes from an address on hold a number in the byte order of the host, and every other byte of memory reads
as it did before. -/
def storedOnly (e : Endian) (m m' : Machine.Memory) (addr : Word) (n v : Nat) : Prop :=
  (∀ k, k < n → m'.read (addr.toNat + k) = some (hostByte e n v k)) ∧
    ∀ a, a < addr.toNat ∨ addr.toNat + n ≤ a → m'.read a = m.read a

/-- The width in bytes that bits 4:3 of an 'opcode' give (rule R69). -/
def sizeOf (opcode : BitVec 8) : Nat :=
  match (opcode >>> 3 &&& 3#8).toNat with
  | 0 => 4
  | 1 => 2
  | 2 => 1
  | _ => 8

/-- The conformance group of an instruction by its class (bits 2:0 of 'opcode'), its code (bits 7:4), its size (bits 4:3),
its mode (bits 7:5), and for a byte swap its width (rule R3, but for `EXIT`). -/
def groupOf (opcode : BitVec 8) (imm : Word32) : Group :=
  let code := (opcode >>> 4).toNat
  let mode := (opcode >>> 5).toNat
  let doubleWord := sizeOf opcode = 8
  match (opcode &&& 7#8).toNat with
  | 0 => if mode = 0 then .base64 else .packet
  | 3 => if mode = 6 then (if doubleWord then .atomic64 else .atomic32) else if doubleWord then .base64 else .base32
  | 4 =>
    if code = 13 then (if imm = 64 then .base64 else .base32)
    else if code = 2 ∨ code = 3 ∨ code = 9 then .divmul32
    else .base32
  | 5 => if code = 0 ∨ code = 8 then .base32 else .base64
  | 6 => .base32
  | 7 =>
    if code = 13 then (if imm = 64 then .base64 else .base32)
    else if code = 2 ∨ code = 3 ∨ code = 9 then .divmul64
    else .base64
  | _ => if doubleWord then .base64 else .base32

/-- The 125 bytes that are an 'opcode' (rule R120). -/
def opcodes : List (BitVec 8) :=
  [0x04, 0x05, 0x06, 0x07, 0x0c, 0x0f, 0x14, 0x15, 0x16, 0x17, 0x18, 0x1c, 0x1d, 0x1e, 0x1f, 0x20,
    0x24, 0x25, 0x26, 0x27, 0x28, 0x2c, 0x2d, 0x2e, 0x2f, 0x30, 0x34, 0x35, 0x36, 0x37, 0x3c, 0x3d,
    0x3e, 0x3f, 0x40, 0x44, 0x45, 0x46, 0x47, 0x48, 0x4c, 0x4d, 0x4e, 0x4f, 0x50, 0x54, 0x55, 0x56,
    0x57, 0x5c, 0x5d, 0x5e, 0x5f, 0x61, 0x62, 0x63, 0x64, 0x65, 0x66, 0x67, 0x69, 0x6a, 0x6b, 0x6c,
    0x6d, 0x6e, 0x6f, 0x71, 0x72, 0x73, 0x74, 0x75, 0x76, 0x77, 0x79, 0x7a, 0x7b, 0x7c, 0x7d, 0x7e,
    0x7f, 0x81, 0x84, 0x85, 0x87, 0x89, 0x91, 0x94, 0x95, 0x97, 0x9c, 0x9f, 0xa4, 0xa5, 0xa6, 0xa7,
    0xac, 0xad, 0xae, 0xaf, 0xb4, 0xb5, 0xb6, 0xb7, 0xbc, 0xbd, 0xbe, 0xbf, 0xc3, 0xc4, 0xc5, 0xc6,
    0xc7, 0xcc, 0xcd, 0xce, 0xcf, 0xd4, 0xd5, 0xd6, 0xd7, 0xdb, 0xdc, 0xdd, 0xde]

/-- The 44 conditional jumps with their conditions on the operands, read as rule R264 says: `a` and `b` are the values of
the two registers. -/
def conditionalJumps (dst src : Reg) (off : BitVec 16) (imm : Word32) (a b : Word) : List (Instr × Bool) :=
  [(.jmpJeqK dst off imm, decide (a.toInt = imm.toInt)),
    (.jmpJeqX dst src off, decide (a.toInt = b.toInt)),
    (.jmp32JeqK dst off imm, decide ((low32 a).toInt = imm.toInt)),
    (.jmp32JeqX dst src off, decide ((low32 a).toInt = (low32 b).toInt)),
    (.jmpJgtK dst off imm, decide ((BitVec.ofInt 64 imm.toInt).toNat < a.toNat)),
    (.jmpJgtX dst src off, decide (b.toNat < a.toNat)),
    (.jmp32JgtK dst off imm, decide (imm.toNat < (low32 a).toNat)),
    (.jmp32JgtX dst src off, decide ((low32 b).toNat < (low32 a).toNat)),
    (.jmpJgeK dst off imm, decide ((BitVec.ofInt 64 imm.toInt).toNat ≤ a.toNat)),
    (.jmpJgeX dst src off, decide (b.toNat ≤ a.toNat)),
    (.jmp32JgeK dst off imm, decide (imm.toNat ≤ (low32 a).toNat)),
    (.jmp32JgeX dst src off, decide ((low32 b).toNat ≤ (low32 a).toNat)),
    (.jmpJsetK dst off imm, decide (a &&& (BitVec.ofInt 64 imm.toInt) ≠ 0)),
    (.jmpJsetX dst src off, decide (a &&& b ≠ 0)),
    (.jmp32JsetK dst off imm, decide ((low32 a) &&& imm ≠ 0)),
    (.jmp32JsetX dst src off, decide ((low32 a) &&& (low32 b) ≠ 0)),
    (.jmpJneK dst off imm, decide (a.toInt ≠ imm.toInt)),
    (.jmpJneX dst src off, decide (a.toInt ≠ b.toInt)),
    (.jmp32JneK dst off imm, decide ((low32 a).toInt ≠ imm.toInt)),
    (.jmp32JneX dst src off, decide ((low32 a).toInt ≠ (low32 b).toInt)),
    (.jmpJsgtK dst off imm, decide (imm.toInt < a.toInt)),
    (.jmpJsgtX dst src off, decide (b.toInt < a.toInt)),
    (.jmp32JsgtK dst off imm, decide (imm.toInt < (low32 a).toInt)),
    (.jmp32JsgtX dst src off, decide ((low32 b).toInt < (low32 a).toInt)),
    (.jmpJsgeK dst off imm, decide (imm.toInt ≤ a.toInt)),
    (.jmpJsgeX dst src off, decide (b.toInt ≤ a.toInt)),
    (.jmp32JsgeK dst off imm, decide (imm.toInt ≤ (low32 a).toInt)),
    (.jmp32JsgeX dst src off, decide ((low32 b).toInt ≤ (low32 a).toInt)),
    (.jmpJltK dst off imm, decide (a.toNat < (BitVec.ofInt 64 imm.toInt).toNat)),
    (.jmpJltX dst src off, decide (a.toNat < b.toNat)),
    (.jmp32JltK dst off imm, decide ((low32 a).toNat < imm.toNat)),
    (.jmp32JltX dst src off, decide ((low32 a).toNat < (low32 b).toNat)),
    (.jmpJleK dst off imm, decide (a.toNat ≤ (BitVec.ofInt 64 imm.toInt).toNat)),
    (.jmpJleX dst src off, decide (a.toNat ≤ b.toNat)),
    (.jmp32JleK dst off imm, decide ((low32 a).toNat ≤ imm.toNat)),
    (.jmp32JleX dst src off, decide ((low32 a).toNat ≤ (low32 b).toNat)),
    (.jmpJsltK dst off imm, decide (a.toInt < imm.toInt)),
    (.jmpJsltX dst src off, decide (a.toInt < b.toInt)),
    (.jmp32JsltK dst off imm, decide ((low32 a).toInt < imm.toInt)),
    (.jmp32JsltX dst src off, decide ((low32 a).toInt < (low32 b).toInt)),
    (.jmpJsleK dst off imm, decide (a.toInt ≤ imm.toInt)),
    (.jmpJsleX dst src off, decide (a.toInt ≤ b.toInt)),
    (.jmp32JsleK dst off imm, decide ((low32 a).toInt ≤ imm.toInt)),
    (.jmp32JsleX dst src off, decide ((low32 a).toInt ≤ (low32 b).toInt))]

end Sys2Proof.Expected

open Sys2Proof Sys2Proof.Machine

/-- Decoding the bytes of a well-formed instruction gives the instruction back. Rests on the spec's own decisions D1
(the encoding follows HOST_ENDIAN), D3 (an instruction of an unsupported group is illegal; EXIT is in base32), D5
('R10 is the frame pointer', read-only by default), D13 (a non-zero unused field is illegal), D14 (undefined opcodes
and selectors are illegal), D33 (register numbers 11 to 15), D35 (a missing second slot). -/
def Obligations.DecodeUndoesEncode : Prop :=
  ∀ (p : Params) (i : Instr) (rest : List Byte), i.WellFormed p →
    decodeBytes p (encodeBytes p.hostEndian i ++ rest) = .ok (i, rest)

/-- Bytes that decode are the encoding of the instruction they decode to, which is well-formed. Rests on the spec's
own decisions D1 (the encoding follows HOST_ENDIAN), D3 (an instruction of an unsupported group is illegal; EXIT is in
base32), D5 ('R10 is the frame pointer', read-only by default), D13 (a non-zero unused field is illegal), D14
(undefined opcodes and selectors are illegal), D33 (register numbers 11 to 15), D35 (a missing second slot). -/
def Obligations.EncodeUndoesDecode : Prop :=
  ∀ (p : Params) (bs : List Byte) (i : Instr) (rest : List Byte), decodeBytes p bs = .ok (i, rest) →
    bs = encodeBytes p.hostEndian i ++ rest ∧ i.WellFormed p

/-- The decoder refuses an 'opcode' byte as undefined exactly when it is none of the 125 defined ones. Rests on the
spec's own decision D14 (undefined opcodes and selectors are illegal). -/
def Obligations.UndefinedOpcodesAreThe131 : Prop :=
  ∀ (f : Fields) (second : Option Fields), decodeFields f second = .error .undefinedOpcode ↔ f.opcode ∉ Expected.opcodes

/-- Thirteen words written out from the encoding decode to their instructions, and one that writes R10 is refused.
Rests on the spec's own decisions D1 (the encoding follows HOST_ENDIAN), D5 ('R10 is the frame pointer', read-only by
default). The words are laid out for the little-endian host of the default parameters (assumption 3). -/
def Obligations.SampleWordsDecode : Prop :=
  decodeTableWord 64 0x0000000500000107 = some (.alu64AddK .r1 5) ∧
  decodeTableWord 64 0x00000000000054ac = some (.aluXorX .r4 .r5) ∧
  decodeTableWord 64 0x00000020000002d4 = some (.aluEndToLe32 .r2) ∧
  decodeTableWord 64 0xfffffffffffe0355 = some (.jmpJneK .r3 (-2) (-1)) ∧
  decodeTableWord 64 0x00000000000387ae = some (.jmp32JltX .r7 .r8 3) ∧
  decodeTableWord 64 0x0000000400001085 = some (.jmpCallLocal 4) ∧
  decodeTableWord 64 0x00000000fff8a169 = some (.ldxMemH .r1 .r10 (-8)) ∧
  decodeTableWord 64 0x0000000000016091 = some (.ldxMemsxB .r0 .r6 1) ∧
  decodeTableWord 64 0x0000002a00070272 = some (.stMemB .r2 7 42) ∧
  decodeTableWord 64 0x00000000fffc1a63 = some (.stxMemW .r10 .r1 (-4)) ∧
  decodeTableWord 64 0x000000f1fff01adb = some (.stxAtomicDwCmpxchg .r10 .r1 (-16)) ∧
  decodeTableWord 128 0x11223344000000005566778800000918 = some (.ldImm64 .r9 0x55667788 0x11223344) ∧
  decodeTableWord 64 0x0000000c00007050 = some (.ldIndB .r7 12) ∧
  decodeTableWord 64 0x0000002000000ad4 = none

/-- A step of a running machine executes the instruction that the slot at the program counter decodes to. Rests on the
spec's own decision D12 ('A fault: the instruction has no effect'). -/
def Obligations.StepRunsTheDecodedInstruction : Prop :=
  ∀ (s : State) (i : Instr), s.status = .running → decodeAt s s.pc = .ok i → step s = exec i s

/-- A step executes the well-formed instruction whose encoding stands at the program counter, else raises
IllegalInstruction. Rests on the spec's own decisions D1 (the encoding follows HOST_ENDIAN), D3 (an instruction of an
unsupported group is illegal; EXIT is in base32), D5 ('R10 is the frame pointer', read-only by default), D13 (a
non-zero unused field is illegal), D14 (undefined opcodes and selectors are illegal), D33 (register numbers 11 to 15),
D35 (a missing second slot). -/
def Obligations.StepRunsTheEncodedInstruction : Prop :=
  ∀ s : State, s.status = .running → s.pc < s.program.length → isSecondSlot s.program s.pc = false →
    (∀ i : Instr, i.WellFormed s.params → encode s.params.hostEndian i <+: s.program.drop s.pc → step s = exec i s) ∧
    ((∀ i : Instr, i.WellFormed s.params → ¬ encode s.params.hostEndian i <+: s.program.drop s.pc) →
      step s = .next { s with status := .faulted (.illegalInstruction s.pc) })

/-- Undefined opcode, register number, missing or non-zero second slot, group and R10 raise IllegalInstruction. Rests
on the spec's own decisions D3 (an instruction of an unsupported group is illegal; EXIT is in base32), D5 ('R10 is the
frame pointer', read-only by default), D12 ('A fault: the instruction has no effect'), D13 (a non-zero unused field is
illegal), D14 (undefined opcodes and selectors are illegal), D33 (register numbers 11 to 15), D35 (a missing second
slot). -/
def Obligations.IllegalInstructionCauses : Prop :=
  ∀ (s : State) (first : Slot) (f : Fields), s.status = .running → s.program[s.pc]? = some first →
    isSecondSlot s.program s.pc = false → f = Fields.ofSlot s.params.hostEndian first →
    (f.opcode ∉ Expected.opcodes ∨ 10 < f.dst.toNat ∨ 10 < f.src.toNat ∨
      (f.opcode = 0x18 ∧ s.program.length = s.pc + 1) ∨
      (f.opcode = 0x18 ∧ ∃ next, s.program[s.pc + 1]? = some next ∧
        (Fields.ofSlot s.params.hostEndian next).word.extractLsb' 0 32 ≠ 0) ∨
      (∃ i : Instr, encode s.params.hostEndian i <+: s.program.drop s.pc ∧
        (i.group ∉ s.params.groups ∨ (s.params.r10ReadOnly = true ∧ i.writtenReg = some .r10)))) →
    step s = .next { s with status := .faulted (.illegalInstruction s.pc) }

/-- A fetch outside the program or at a second slot faults. Rests on the spec's own decisions D15 (a bad jump target
faults at the jump), D34 (execution past the last slot). -/
def Obligations.FetchFaults : Prop :=
  ∀ s : State, s.status = .running →
    (s.program.length ≤ s.pc → step s = .next { s with status := .faulted (.fetchOutOfRange s.pc) }) ∧
    (s.pc < s.program.length → isSecondSlot s.program s.pc = true →
      step s = .next { s with status := .faulted (.jumpIntoWide s.pc) })

/-- A halted or faulted machine takes no step. Rests on the spec's own decisions D9 (how a run ends), D12 ('A fault:
the instruction has no effect'). That step answers a fault there is the model's choice of assumption 10. -/
def Obligations.StoppedMachineTakesNoStep : Prop :=
  (∀ (s : State) (v : Word), s.status = .halted v → step s = .fault (.afterHalt v)) ∧
    ∀ (s : State) (r : FaultReason), s.status = .faulted r → step s = .fault (.afterFault r)

/-- Every instruction answers a next state in every state, and so does every step of a running machine. Rests on the
spec's own decision D12 ('A fault: the instruction has no effect'). -/
def Obligations.EveryInstructionAnswersNext : Prop :=
  (∀ (i : Instr) (s : State), ∃ t, exec i s = .next t) ∧ ∀ s : State, s.status = .running → ∃ t, step s = .next t

/-- A step that faults changes nothing but the status. Rests on the spec's own decision D12 ('A fault: the instruction
has no effect'). -/
def Obligations.FaultsArePrecise : Prop :=
  ∀ (s t : State) (r : FaultReason), step s = .next t → t.status = .faulted r → t = { s with status := .faulted r }

/-- A run ends only by the outermost EXIT with R0 as result, or by a packet load outside the packet with result 0.
Rests on the spec's own decisions D9 (how a run ends), D28 (PACKET). -/
def Obligations.HaltsOnlyByExitOrPacketLoad : Prop :=
  ∀ (s t : State) (v : Word), step s = .next t → t.status = .halted v →
    t = { s with status := .halted v } ∧
    ∃ i, decodeAt s s.pc = .ok i ∧
      ((i = .jmpExit ∧ s.frames = [] ∧ s.reg .r0 = some v) ∨
        (v = 0 ∧ ∃ (pkt : List Byte) (imm : Word32) (n : Nat) (k : Int), s.params.packet = .linux pkt ∧
          ((i, n, k) ∈ [(.ldAbsW imm, 4, imm.toInt), (.ldAbsH imm, 2, imm.toInt), (.ldAbsB imm, 1, imm.toInt)] ∨
            ∃ (src : Reg) (x : Word), s.reg src = some x ∧
              (i, n, k) ∈ [(.ldIndW src imm, 4, (x.toInt + imm.toInt).bmod (2 ^ 32)),
                (.ldIndH src imm, 2, (x.toInt + imm.toInt).bmod (2 ^ 32)),
                (.ldIndB src imm, 1, (x.toInt + imm.toInt).bmod (2 ^ 32))]) ∧
          (k < 0 ∨ (pkt.length : Int) < k + n)))

/-- An arithmetic or byte swap instruction faults only by reading an unwritten register. Rests on the spec's own
decisions D6 ('Registers start without a value (`UNWRITTEN`)'), D12 ('A fault: the instruction has no effect'). -/
def Obligations.ArithmeticFaultsOnlyOnUnwrittenRegisters : Prop :=
  ∀ (i : Instr) (s t : State) (r : FaultReason), (i.fields.opcode &&& 7#8 = 4#8 ∨ i.fields.opcode &&& 7#8 = 7#8) →
    s.status = .running → exec i s = .next t → t.status = .faulted r →
    ∃ q, r = .uninitRegister q ∧ q ∈ i.reads ∧ s.reg q = none

/-- An instruction that reads an unwritten register raises UninitRegister for the first one in the order of its reads.
Rests on the spec's own decisions D6 ('Registers start without a value (`UNWRITTEN`)'), D12 ('A fault: the instruction
has no effect'). -/
def Obligations.UnwrittenOperandFaults : Prop :=
  ∀ (i : Instr) (s : State) (l r : List Reg) (q : Reg), i.reads = l ++ q :: r → (∀ p ∈ l, s.reg p ≠ none) →
    s.reg q = none → (i.group = .packet → s.params.packet ≠ .unsupported) →
    exec i s = .next { s with status := .faulted (.uninitRegister q) }

/-- A data access that Admit refuses raises MemoryAccessFault, and a read of a byte without a value raises
UninitMemory. Rests on the spec's own decisions D12 ('A fault: the instruction has no effect'), D16 (`Admit`, and
bytes without a value), D17 (alignment). That a byte outside the stack can hold no value, so that reading it raises
UninitMemory, is the model's choice of assumption 4. That the platform's part of Admit is a list of regions and grants
is the model's choice of assumption 5. -/
def Obligations.DataAccessFaults : Prop :=
  ∀ (s : State) (dst src : Reg) (off : BitVec 16) (imm : Word32) (base : Word),
    (s.reg src = some base → ∀ p ∈ (
        [(.ldxMemW dst src off, 4), (.ldxMemH dst src off, 2), (.ldxMemB dst src off, 1), (.ldxMemDw dst src off, 8),
         (.ldxMemsxW dst src off, 4), (.ldxMemsxH dst src off, 2), (.ldxMemsxB dst src off, 1)] : List (Instr × Nat)),
      (s.admits (effectiveAddr base off) p.2 .read = false →
        exec p.1 s = .next { s with status := .faulted (.memoryAccessFault (effectiveAddr base off) p.2 .read) }) ∧
      ∀ k, k < p.2 → s.admits (effectiveAddr base off) p.2 .read = true →
        s.mem.read ((effectiveAddr base off).toNat + k) = none →
        exec p.1 s = .next { s with status := .faulted (.uninitMemory (effectiveAddr base off)) }) ∧
    (s.reg dst = some base → ∀ p ∈ (
        [(.stMemW dst off imm, 4), (.stMemH dst off imm, 2), (.stMemB dst off imm, 1), (.stMemDw dst off imm, 8),
         (.stxMemW dst src off, 4), (.stxMemH dst src off, 2), (.stxMemB dst src off, 1), (.stxMemDw dst src off, 8)] :
        List (Instr × Nat)),
      (∀ q ∈ p.1.reads, s.reg q ≠ none) → s.admits (effectiveAddr base off) p.2 .write = false →
        exec p.1 s = .next { s with status := .faulted (.memoryAccessFault (effectiveAddr base off) p.2 .write) }) ∧
    (s.reg dst = some base → ∀ p ∈ (
        [(.stxAtomicWAdd dst src off, 4), (.stxAtomicDwAdd dst src off, 8), (.stxAtomicWOr dst src off, 4),
         (.stxAtomicDwOr dst src off, 8), (.stxAtomicWAnd dst src off, 4), (.stxAtomicDwAnd dst src off, 8),
         (.stxAtomicWXor dst src off, 4), (.stxAtomicDwXor dst src off, 8), (.stxAtomicWAddFetch dst src off, 4),
         (.stxAtomicDwAddFetch dst src off, 8), (.stxAtomicWOrFetch dst src off, 4),
         (.stxAtomicDwOrFetch dst src off, 8), (.stxAtomicWAndFetch dst src off, 4),
         (.stxAtomicDwAndFetch dst src off, 8), (.stxAtomicWXorFetch dst src off, 4),
         (.stxAtomicDwXorFetch dst src off, 8), (.stxAtomicWXchg dst src off, 4), (.stxAtomicDwXchg dst src off, 8),
         (.stxAtomicWCmpxchg dst src off, 4), (.stxAtomicDwCmpxchg dst src off, 8)] : List (Instr × Nat)),
      (∀ q ∈ p.1.reads, s.reg q ≠ none) →
      (s.admits (effectiveAddr base off) p.2 .atomic = false →
        exec p.1 s = .next { s with status := .faulted (.memoryAccessFault (effectiveAddr base off) p.2 .atomic) }) ∧
      ∀ k, k < p.2 → s.admits (effectiveAddr base off) p.2 .atomic = true →
        s.mem.read ((effectiveAddr base off).toNat + k) = none →
        exec p.1 s = .next { s with status := .faulted (.uninitMemory (effectiveAddr base off)) })

/-- A taken jump to a target outside the program or at a second slot faults at the jump. Rests on the spec's own
decision D15 (a bad jump target faults at the jump). -/
def Obligations.JumpTargetFaults : Prop :=
  ∀ (s : State) (dst src : Reg) (off : BitVec 16) (imm : Word32) (a b : Word), s.reg dst = some a → s.reg src = some b →
    ∀ p ∈ ([(.jmpJa off, off.toInt), (.jmp32Ja imm, imm.toInt)] ++
        ((Expected.conditionalJumps dst src off imm a b).filter fun q => q.2).map fun q => (q.1, off.toInt) :
        List (Instr × Int)),
      (s.pc + 1 + p.2 < 0 ∨ s.program.length ≤ s.pc + 1 + p.2 →
        exec p.1 s = .next { s with status := .faulted (.jumpOutOfRange (s.pc + 1 + p.2)) }) ∧
      ∀ t : Nat, t = s.pc + 1 + p.2 → t < s.program.length → isSecondSlot s.program t = true →
        exec p.1 s = .next { s with status := .faulted (.jumpIntoWide t) }

/-- A program-local CALL faults at the greatest depth, then on a bad target. Rests on the spec's own decisions D10
(what a program-local call saves, and the stack frames), D15 (a bad jump target faults at the jump), D31 (limits). -/
def Obligations.LocalCallFaults : Prop :=
  ∀ (s : State) (imm : Word32),
    (s.params.maxCallDepth ≤ s.depth →
      exec (.jmpCallLocal imm) s = .next { s with status := .faulted .callDepthExceeded }) ∧
    (s.depth < s.params.maxCallDepth →
      (s.pc + 1 + imm.toInt < 0 ∨ s.program.length ≤ s.pc + 1 + imm.toInt →
        exec (.jmpCallLocal imm) s = .next { s with status := .faulted (.jumpOutOfRange (s.pc + 1 + imm.toInt)) }) ∧
      ∀ t : Nat, t = s.pc + 1 + imm.toInt → t < s.program.length → isSecondSlot s.program t = true →
        exec (.jmpCallLocal imm) s = .next { s with status := .faulted (.jumpIntoWide t) })

/-- A helper CALL faults on an unknown id, then on an unwritten argument, then when the helper fails. Rests on the
spec's own decisions D6 ('Registers start without a value (`UNWRITTEN`)'), D11 (the helper call contract), D12 ('A
fault: the instruction has no effect'), D32 (BTF helpers). -/
def Obligations.HelperCallFaults : Prop :=
  ∀ (s : State) (id : Word32), ∀ p ∈ ([(.jmpCallHelper id, .static), (.jmpCallBtf id, .btf)] :
        List (Instr × HelperTable)),
    (lookupTable (s.params.helperTable p.2) id = none →
      exec p.1 s = .next { s with status := .faulted (.unknownHelper id) }) ∧
    ∀ h, lookupTable (s.params.helperTable p.2) id = some h →
      (∀ (l r : List Reg) (q : Reg), argRegs.take h.arity = l ++ q :: r → (∀ x ∈ l, s.reg x ≠ none) → s.reg q = none →
        exec p.1 s = .next { s with status := .faulted (.uninitRegister q) }) ∧
      ∀ (args : List Word) (reason : Nat), (argRegs.take h.arity).map s.reg = args.map some →
        runHelper p.2 id h.body args s.mem s.draws = .fails reason →
        exec p.1 s = .next { s with status := .faulted (.helperFault id reason) }

/-- An undefined platform object and an unsupported packet load raise PlatformUnsupported. Rests on the spec's own
decisions D27 (the platform functions), D28 (PACKET). -/
def Obligations.PlatformFaults : Prop :=
  ∀ (s : State) (dst src : Reg) (imm next : Word32),
    (∀ p ∈ ([(.ldMapByFd dst imm, lookupTable s.params.mapByFd imm), (.ldMapByIdx dst imm, lookupTable s.params.mapByIdx imm),
        (.ldVarAddr dst imm, lookupTable s.params.varAddr imm),
        (.ldCodeAddr dst imm, lookupTable s.params.codeAddr (s.pc, imm)),
        (.ldMapValByFd dst imm next, (lookupTable s.params.mapByFd imm).bind (lookupTable s.params.mapVal)),
        (.ldMapValByIdx dst imm next, (lookupTable s.params.mapByIdx imm).bind (lookupTable s.params.mapVal))] :
        List (Instr × Option Word)),
      p.2 = none → exec p.1 s = .next { s with status := .faulted (.platformUnsupported s.pc) }) ∧
    (s.params.packet = .unsupported →
      ∀ i ∈ [.ldAbsW imm, .ldAbsH imm, .ldAbsB imm, .ldIndW src imm, .ldIndH src imm, .ldIndB src imm],
        exec i s = .next { s with status := .faulted (.platformUnsupported s.pc) })

/-- ADD, SUB and MUL write the sum, difference and product on integers, reduced modulo 2^n, and record nothing else.
Rests on the spec's own decision D22 (an immediate of ALU64 and JMP is sign-extended). -/
def Obligations.AddSubMulResults : Prop :=
  ∀ (s : State) (dst src : Reg) (imm : Word32) (a b : Word), s.reg dst = some a → s.reg src = some b →
    (∀ p ∈ (
        [(.aluAddK dst imm, 32, (low32 a).toInt, imm.toInt),
         (.aluAddX dst src, 32, (low32 a).toInt, (low32 b).toInt), (.alu64AddK dst imm, 64, a.toInt, imm.toInt),
         (.alu64AddX dst src, 64, a.toInt, b.toInt)] : List (Instr × Nat × Int × Int)),
      exec p.1 s = .next { s with
        regs := s.regs.set dst (some (BitVec.ofInt 64 ((p.2.2.1 + p.2.2.2) % 2 ^ p.2.1)))
        pc := s.pc + 1 }) ∧
    (∀ p ∈ (
        [(.aluSubK dst imm, 32, (low32 a).toInt, imm.toInt),
         (.aluSubX dst src, 32, (low32 a).toInt, (low32 b).toInt), (.alu64SubK dst imm, 64, a.toInt, imm.toInt),
         (.alu64SubX dst src, 64, a.toInt, b.toInt)] : List (Instr × Nat × Int × Int)),
      exec p.1 s = .next { s with
        regs := s.regs.set dst (some (BitVec.ofInt 64 ((p.2.2.1 - p.2.2.2) % 2 ^ p.2.1)))
        pc := s.pc + 1 }) ∧
    (∀ p ∈ (
        [(.aluMulK dst imm, 32, (low32 a).toInt, imm.toInt),
         (.aluMulX dst src, 32, (low32 a).toInt, (low32 b).toInt), (.alu64MulK dst imm, 64, a.toInt, imm.toInt),
         (.alu64MulX dst src, 64, a.toInt, b.toInt)] : List (Instr × Nat × Int × Int)),
      exec p.1 s = .next { s with
        regs := s.regs.set dst (some (BitVec.ofInt 64 ((p.2.2.1 * p.2.2.2) % 2 ^ p.2.1)))
        pc := s.pc + 1 })

/-- DIV and MOD write the unsigned quotient and remainder (rule R153). -/
def Obligations.UnsignedDivisionAndModulo : Prop :=
  ∀ (s : State) (dst src : Reg) (imm : Word32) (a b : Word), s.reg dst = some a → s.reg src = some b →
    (∀ p ∈ (
        [(.aluDivK dst imm, 32, (low32 a).toNat, imm.toNat),
         (.aluDivX dst src, 32, (low32 a).toNat, (low32 b).toNat),
         (.alu64DivK dst imm, 64, a.toNat, (BitVec.ofInt 64 imm.toInt).toNat),
         (.alu64DivX dst src, 64, a.toNat, b.toNat)] : List (Instr × Nat × Nat × Nat)),
      p.2.2.2 ≠ 0 →
      exec p.1 s = .next { s with
        regs := s.regs.set dst (some (BitVec.ofNat 64 (p.2.2.1 / p.2.2.2)))
        pc := s.pc + 1 }) ∧
    (∀ p ∈ (
        [(.aluModK dst imm, 32, (low32 a).toNat, imm.toNat),
         (.aluModX dst src, 32, (low32 a).toNat, (low32 b).toNat),
         (.alu64ModK dst imm, 64, a.toNat, (BitVec.ofInt 64 imm.toInt).toNat),
         (.alu64ModX dst src, 64, a.toNat, b.toNat)] : List (Instr × Nat × Nat × Nat)),
      p.2.2.2 ≠ 0 → p.2.2.1 - p.2.2.2 * (p.2.2.1 / p.2.2.2) < p.2.2.2 ∧
      exec p.1 s = .next { s with
        regs := s.regs.set dst (some (BitVec.ofNat 64 (p.2.2.1 - p.2.2.2 * (p.2.2.1 / p.2.2.2))))
        pc := s.pc + 1 })

/-- DIV and SDIV by zero do not fault: the destination becomes 0; the test is on the n-bit operand (rule R155). -/
def Obligations.DivisionByZeroGivesZero : Prop :=
  ∀ (s : State) (dst src : Reg) (imm : Word32) (a b : Word), s.reg dst = some a → s.reg src = some b →
    (∀ p ∈ (
        [(.aluDivK dst imm, imm == 0), (.alu64DivK dst imm, imm == 0), (.aluSdivK dst imm, imm == 0),
         (.alu64SdivK dst imm, imm == 0), (.aluDivX dst src, low32 b == 0), (.aluSdivX dst src, low32 b == 0),
         (.alu64DivX dst src, b == 0), (.alu64SdivX dst src, b == 0)] : List (Instr × Bool)),
      p.2 = true → exec p.1 s = .next { s with regs := s.regs.set dst (some 0), pc := s.pc + 1 }) ∧
    (∀ p ∈ (
        [(.aluDivK dst imm, 32, (low32 a).toNat, imm.toNat),
         (.aluDivX dst src, 32, (low32 a).toNat, (low32 b).toNat),
         (.alu64DivK dst imm, 64, a.toNat, (BitVec.ofInt 64 imm.toInt).toNat),
         (.alu64DivX dst src, 64, a.toNat, b.toNat)] : List (Instr × Nat × Nat × Nat)),
      exec p.1 s = .next { s with
        regs := s.regs.set dst (some (BitVec.ofNat 64 (if p.2.2.2 ≠ 0 then p.2.2.1 / p.2.2.2 else 0)))
        pc := s.pc + 1 })

/-- MOD and SMOD by zero do not fault: ALU64 leaves the destination as it was, ALU keeps its low 32 bits (rule R156).
-/
def Obligations.ModuloByZeroKeepsTheDividend : Prop :=
  ∀ (s : State) (dst src : Reg) (imm : Word32) (a b : Word), s.reg dst = some a → s.reg src = some b →
    (∀ p ∈ (
        [(.alu64ModK dst imm, imm == 0), (.alu64SmodK dst imm, imm == 0), (.alu64ModX dst src, b == 0),
         (.alu64SmodX dst src, b == 0)] : List (Instr × Bool)),
      p.2 = true → exec p.1 s = .next { s with pc := s.pc + 1 }) ∧
    (∀ p ∈ (
        [(.aluModK dst imm, imm == 0), (.aluSmodK dst imm, imm == 0), (.aluModX dst src, low32 b == 0),
         (.aluSmodX dst src, low32 b == 0)] : List (Instr × Bool)),
      p.2 = true →
        exec p.1 s = .next { s with regs := s.regs.set dst (some (BitVec.ofNat 64 (a.toNat % 2 ^ 32))), pc := s.pc + 1 }) ∧
    (∀ p ∈ (
        [(.aluModK dst imm, 32, (low32 a).toNat, imm.toNat),
         (.aluModX dst src, 32, (low32 a).toNat, (low32 b).toNat),
         (.alu64ModK dst imm, 64, a.toNat, (BitVec.ofInt 64 imm.toInt).toNat),
         (.alu64ModX dst src, 64, a.toNat, b.toNat)] : List (Instr × Nat × Nat × Nat)),
      exec p.1 s = .next { s with
        regs := s.regs.set dst (some (BitVec.ofNat 64 (if p.2.2.2 ≠ 0 then p.2.2.1 % p.2.2.2 else p.2.2.1)))
        pc := s.pc + 1 })

/-- SDIV and SMOD write the truncated quotient and its remainder, wrapping where SDIV_OVERFLOW is wrap. Rests on the
spec's own decisions D20 (SDIV_OVERFLOW), D21 (SDIV truncates toward zero). -/
def Obligations.SignedDivisionAndModulo : Prop :=
  ∀ (s : State) (dst src : Reg) (imm : Word32) (a b : Word), s.reg dst = some a → s.reg src = some b →
    (∀ p ∈ (
        [(.aluSdivK dst imm, 32, (low32 a).toInt, imm.toInt),
         (.aluSdivX dst src, 32, (low32 a).toInt, (low32 b).toInt), (.alu64SdivK dst imm, 64, a.toInt, imm.toInt),
         (.alu64SdivX dst src, 64, a.toInt, b.toInt)] : List (Instr × Nat × Int × Int)),
      (s.params.sdivOverflow = .wrap ∨ ¬(p.2.2.1 = -2 ^ (p.2.1 - 1) ∧ p.2.2.2 = -1)) →
      exec p.1 s = .next { s with
        regs := s.regs.set dst (some (BitVec.ofInt 64 ((if p.2.2.2 = 0 then 0 else p.2.2.1.tdiv p.2.2.2) % 2 ^ p.2.1)))
        pc := s.pc + 1 }) ∧
    (∀ p ∈ (
        [(.aluSmodK dst imm, 32, (low32 a).toInt, imm.toInt),
         (.aluSmodX dst src, 32, (low32 a).toInt, (low32 b).toInt), (.alu64SmodK dst imm, 64, a.toInt, imm.toInt),
         (.alu64SmodX dst src, 64, a.toInt, b.toInt)] : List (Instr × Nat × Int × Int)),
      exec p.1 s = .next { s with
        regs := s.regs.set dst (some (BitVec.ofInt 64
        ((if p.2.2.2 = 0 then p.2.2.1 else p.2.2.1 - p.2.2.2 * p.2.2.1.tdiv p.2.2.2) % 2 ^ p.2.1)))
        pc := s.pc + 1 })

/-- Under SDIV_OVERFLOW = draw the overflowing signed division writes a drawn n-bit value and nothing else. Rests on
the spec's own decision D20 (SDIV_OVERFLOW). The drawn value is the free value of assumption 9. -/
def Obligations.SignedDivisionDrawsOnOverflow : Prop :=
  ∀ (s : State) (dst src : Reg) (imm : Word32) (a b : Word), s.reg dst = some a → s.reg src = some b →
    s.params.sdivOverflow = .draw →
    ∀ p ∈ (
        [(.aluSdivK dst imm, 32, (low32 a).toInt, imm.toInt),
         (.aluSdivX dst src, 32, (low32 a).toInt, (low32 b).toInt), (.alu64SdivK dst imm, 64, a.toInt, imm.toInt),
         (.alu64SdivX dst src, 64, a.toInt, b.toInt)] : List (Instr × Nat × Int × Int)),
      p.2.2.1 = -2 ^ (p.2.1 - 1) → p.2.2.2 = -1 →
      ∃ v : Word, v.toNat < 2 ^ p.2.1 ∧
        exec p.1 s = .next { s with regs := s.regs.set dst (some v), pc := s.pc + 1, draws := s.draws + 1 }

/-- OR, AND and XOR write the bitwise result, zero above the width. Rests on the spec's own decision D22 (an immediate
of ALU64 and JMP is sign-extended). -/
def Obligations.BitwiseResults : Prop :=
  ∀ (s : State) (dst src : Reg) (imm : Word32) (a b : Word), s.reg dst = some a → s.reg src = some b →
    ∀ p ∈ (
        [(.aluOrK dst imm, 32, or, imm.getLsbD), (.aluOrX dst src, 32, or, b.getLsbD),
         (.alu64OrK dst imm, 64, or, fun k => imm.getLsbD (min k 31)), (.alu64OrX dst src, 64, or, b.getLsbD),
         (.aluAndK dst imm, 32, and, imm.getLsbD), (.aluAndX dst src, 32, and, b.getLsbD),
         (.alu64AndK dst imm, 64, and, fun k => imm.getLsbD (min k 31)), (.alu64AndX dst src, 64, and, b.getLsbD),
         (.aluXorK dst imm, 32, xor, imm.getLsbD), (.aluXorX dst src, 32, xor, b.getLsbD),
         (.alu64XorK dst imm, 64, xor, fun k => imm.getLsbD (min k 31)), (.alu64XorX dst src, 64, xor, b.getLsbD)] :
        List (Instr × Nat × (Bool → Bool → Bool) × (Nat → Bool))),
      ∃ v : Word, (∀ k, k < 64 → v.getLsbD k = (decide (k < p.2.1) && p.2.2.1 (a.getLsbD k) (p.2.2.2 k))) ∧
        exec p.1 s = .next { s with regs := s.regs.set dst (some v), pc := s.pc + 1 }

/-- LSH, RSH and ARSH shift by the low 5 or 6 bits of the source operand, filling with zeros or with the sign (rule
R159). -/
def Obligations.ShiftResults : Prop :=
  ∀ (s : State) (dst src : Reg) (imm : Word32) (a b : Word), s.reg dst = some a → s.reg src = some b →
    (∀ p ∈ (
        [(.aluLshK dst imm, 32, (low32 a).toNat, imm.toNat), (.aluLshX dst src, 32, (low32 a).toNat, b.toNat),
         (.alu64LshK dst imm, 64, a.toNat, imm.toNat), (.alu64LshX dst src, 64, a.toNat, b.toNat)] :
        List (Instr × Nat × Nat × Nat)),
      exec p.1 s = .next { s with
        regs := s.regs.set dst (some (BitVec.ofNat 64 (p.2.2.1 * 2 ^ (p.2.2.2 % p.2.1) % 2 ^ p.2.1)))
        pc := s.pc + 1 }) ∧
    (∀ p ∈ (
        [(.aluRshK dst imm, 32, (low32 a).toNat, imm.toNat), (.aluRshX dst src, 32, (low32 a).toNat, b.toNat),
         (.alu64RshK dst imm, 64, a.toNat, imm.toNat), (.alu64RshX dst src, 64, a.toNat, b.toNat)] :
        List (Instr × Nat × Nat × Nat)),
      exec p.1 s = .next { s with
        regs := s.regs.set dst (some (BitVec.ofNat 64 (p.2.2.1 / 2 ^ (p.2.2.2 % p.2.1))))
        pc := s.pc + 1 }) ∧
    (∀ p ∈ (
        [(.aluArshK dst imm, 32, (low32 a).toInt, imm.toNat), (.aluArshX dst src, 32, (low32 a).toInt, b.toNat),
         (.alu64ArshK dst imm, 64, a.toInt, imm.toNat), (.alu64ArshX dst src, 64, a.toInt, b.toNat)] :
        List (Instr × Nat × Int × Nat)),
      exec p.1 s = .next { s with
        regs := s.regs.set dst (some (BitVec.ofInt 64 (p.2.2.1 / 2 ^ (p.2.2.2 % p.2.1) % 2 ^ p.2.1)))
        pc := s.pc + 1 })

/-- NEG writes the two's complement; MOV and MOVSX write the source operand and do not read the destination. Rests on
the spec's own decision D22 (an immediate of ALU64 and JMP is sign-extended). -/
def Obligations.NegationAndMoveResults : Prop :=
  ∀ (s : State) (dst src : Reg) (imm : Word32),
    (∀ a : Word, s.reg dst = some a → ∀ p ∈ ([(.aluNegK dst, -(low32 a).toInt % 2 ^ 32), (.alu64NegK dst, -a.toInt % 2 ^ 64)] :
        List (Instr × Int)),
      exec p.1 s = .next { s with regs := s.regs.set dst (some (BitVec.ofInt 64 p.2)), pc := s.pc + 1 }) ∧
    (∀ p ∈ ([(.aluMovK dst imm, imm.toInt % 2 ^ 32), (.alu64MovK dst imm, imm.toInt)] : List (Instr × Int)),
      exec p.1 s = .next { s with regs := s.regs.set dst (some (BitVec.ofInt 64 p.2)), pc := s.pc + 1 }) ∧
    ∀ b : Word, s.reg src = some b →
      ∀ p ∈ ([(.aluMovX dst src, b.toInt % 2 ^ 32), (.alu64MovX dst src, b.toInt),
          (.aluMovsx8X dst src, (b.setWidth 8).toInt % 2 ^ 32), (.aluMovsx16X dst src, (b.setWidth 16).toInt % 2 ^ 32),
          (.alu64Movsx8X dst src, (b.setWidth 8).toInt), (.alu64Movsx16X dst src, (b.setWidth 16).toInt),
          (.alu64Movsx32X dst src, (b.setWidth 32).toInt)] : List (Instr × Int)),
        exec p.1 s = .next { s with regs := s.regs.set dst (some (BitVec.ofInt 64 p.2)), pc := s.pc + 1 }

/-- The byte swaps reverse the low bytes of the destination where the host order asks for it, and clear the bytes
above. Rests on the spec's own decision D23 (zero above the width of a swap). -/
def Obligations.ByteSwapResults : Prop :=
  ∀ (s : State) (dst : Reg) (a : Word), s.reg dst = some a →
    ∀ p ∈ (
        [(.aluEndToLe16 dst, 2, s.params.hostEndian == .big), (.aluEndToLe32 dst, 4, s.params.hostEndian == .big),
         (.aluEndToLe64 dst, 8, s.params.hostEndian == .big), (.aluEndToBe16 dst, 2, s.params.hostEndian == .little),
         (.aluEndToBe32 dst, 4, s.params.hostEndian == .little),
         (.aluEndToBe64 dst, 8, s.params.hostEndian == .little), (.alu64EndBswap16 dst, 2, true),
         (.alu64EndBswap32 dst, 4, true), (.alu64EndBswap64 dst, 8, true)] : List (Instr × Nat × Bool)),
      ∃ v : Word, (∀ k, k < 8 → v.extractLsb' (8 * k) 8 =
          if k < p.2.1 then a.extractLsb' (8 * (if p.2.2 then p.2.1 - 1 - k else k)) 8 else 0) ∧
        exec p.1 s = .next { s with regs := s.regs.set dst (some v), pc := s.pc + 1 }

/-- Instructions of classes ALU (but END) and JMP32 do not see the upper halves of the registers. Rests on the spec's
own decisions D6 ('Registers start without a value (`UNWRITTEN`)'), D12 ('A fault: the instruction has no effect'). -/
def Obligations.UpperHalvesDoNotMatter : Prop :=
  ∀ (i : Instr) (s u t w : State), ((i.fields.opcode &&& 7#8 = 4#8 ∧ i.fields.opcode >>> 4 ≠ 13#8) ∨ i.fields.opcode &&& 7#8 = 6#8) →
    u = { s with regs := u.regs } → (∀ r, (s.reg r).map low32 = (u.reg r).map low32) →
    exec i s = .next t → exec i u = .next w →
    t.pc = w.pc ∧ t.status = w.status ∧ w = { t with regs := w.regs } ∧ (∀ r, (t.reg r).map low32 = (w.reg r).map low32) ∧
      (t.pc ≠ s.pc → ∀ r, i.writtenReg = some r → t.reg r = w.reg r)

/-- JA goes to the slot after it plus its distance, counted in slots on integers. Rests on the spec's own decisions D7
(the program counter is an unbounded slot index), D15 (a bad jump target faults at the jump). -/
def Obligations.UnconditionalJumpResults : Prop :=
  ∀ (s : State) (off : BitVec 16) (imm : Word32) (t : Nat), t < s.program.length → isSecondSlot s.program t = false →
    ∀ p ∈ ([(.jmpJa off, off.toInt), (.jmp32Ja imm, imm.toInt)] : List (Instr × Int)),
      t = s.pc + 1 + p.2 → exec p.1 s = .next { s with pc := t }

/-- Each of the 44 conditional jumps is taken exactly when its condition holds of its operands. Rests on the spec's
own decisions D7 (the program counter is an unbounded slot index), D15 (a bad jump target faults at the jump), D22 (an
immediate of ALU64 and JMP is sign-extended). -/
def Obligations.ConditionalJumpResults : Prop :=
  ∀ (s : State) (dst src : Reg) (off : BitVec 16) (imm : Word32) (a b : Word), s.reg dst = some a → s.reg src = some b →
    ∀ p ∈ Expected.conditionalJumps dst src off imm a b,
      (p.2 = true → ∀ t : Nat, t = s.pc + 1 + off.toInt → t < s.program.length → isSecondSlot s.program t = false →
        exec p.1 s = .next { s with pc := t }) ∧
      (p.2 = false → exec p.1 s = .next { s with pc := s.pc + 1 })

/-- A helper CALL gives R0 the result, drops R1 to R5, keeps R6 to R10 and the frames, and changes the bytes the
helper says. Rests on the spec's own decisions D11 (the helper call contract), D32 (BTF helpers). The outcome of an
external helper is the free value of assumption 8. -/
def Obligations.HelperCallResults : Prop :=
  ∀ (s : State) (id : Word32) (h : Helper) (args : List Word) (r0 : Word) (writes : List (Word × Option Byte)),
    ∀ p ∈ ([(.jmpCallHelper id, .static), (.jmpCallBtf id, .btf)] : List (Instr × HelperTable)),
    lookupTable (s.params.helperTable p.2) id = some h → (argRegs.take h.arity).map s.reg = args.map some →
    runHelper p.2 id h.body args s.mem s.draws = .returns r0 writes →
    ∃ m : Memory,
      exec p.1 s = .next { s with
        regs := { s.regs with r0 := some r0, r1 := none, r2 := none, r3 := none, r4 := none, r5 := none }
        mem := m, pc := s.pc + 1, draws := if h.body = .external then s.draws + 1 else s.draws } ∧
      (∀ a, (∀ w ∈ writes, w.1.toNat ≠ a) → m.read a = s.mem.read a) ∧
      ∀ (l r : List (Word × Option Byte)) (w : Word × Option Byte), writes = l ++ w :: r → (∀ x ∈ r, x.1 ≠ w.1) →
        m.read w.1.toNat = w.2

/-- A program-local CALL pushes the return slot with R6 to R10 and gives the callee its own R10 and a frame without
values. Rests on the spec's own decisions D6 ('Registers start without a value (`UNWRITTEN`)'), D10 (what a
program-local call saves, and the stack frames), D15 (a bad jump target faults at the jump), D16 (`Admit`, and bytes
without a value), D31 (limits). That the frame's bytes lose at the call what a helper may have left there is
assumption 11. -/
def Obligations.LocalCallResults : Prop :=
  ∀ (s : State) (imm : Word32) (t : Nat), s.depth < s.params.maxCallDepth → t = s.pc + 1 + imm.toInt →
    t < s.program.length → isSecondSlot s.program t = false →
    ∃ m : Memory, exec (.jmpCallLocal imm) s = .next { s with
        frames := ⟨s.pc + 1, s.reg .r6, s.reg .r7, s.reg .r8, s.reg .r9, s.reg .r10⟩ :: s.frames
        regs := { s.regs with
          r0 := none
          r6 := none
          r7 := none
          r8 := none
          r9 := none
          r10 := some (s.params.framePointer (s.depth + 1)) }
        mem := m
        pc := t } ∧
      ∀ a, m.read a =
        if s.params.frameBase (s.depth + 1) ≤ a ∧ a < s.params.frameTop (s.depth + 1) then none else s.mem.read a

/-- EXIT returns to the caller of a program-local function, or ends the run with R0. Rests on the spec's own decisions
D3 (an instruction of an unsupported group is illegal; EXIT is in base32), D9 (how a run ends), D10 (what a
program-local call saves, and the stack frames), D16 (`Admit`, and bytes without a value). -/
def Obligations.ExitResults : Prop :=
  ∀ s : State,
    (∀ (f : Frame) (rest : List Frame), s.frames = f :: rest → ∃ m : Memory,
      exec .jmpExit s = .next { s with
        frames := rest
        regs := ⟨s.reg .r0, none, none, none, none, none, f.r6, f.r7, f.r8, f.r9, f.r10⟩
        mem := m
        pc := f.ret } ∧
      ∀ a, m.read a =
        if s.params.frameBase s.depth ≤ a ∧ a < s.params.frameTop s.depth then none else s.mem.read a) ∧
    (s.frames = [] → (∀ v, s.reg .r0 = some v → exec .jmpExit s = .next { s with status := .halted v }) ∧
      (s.reg .r0 = none → exec .jmpExit s = .next { s with status := .faulted (.uninitRegister .r0) })) ∧
    Instr.group .jmpExit = .base32

/-- After a program-local call returns, the caller has its R6 to R10, its frames and the slot after the call. Rests on
the spec's own decision D10 (what a program-local call saves, and the stack frames). -/
def Obligations.CallAndExitPreserveTheCaller : Prop :=
  ∀ (s t u : State) (imm : Word32), s.status = .running → exec (.jmpCallLocal imm) s = .next t → t.status = .running →
    u.frames = t.frames →
    ∃ w, exec .jmpExit u = .next w ∧ (∀ r ∈ [.r6, .r7, .r8, .r9, .r10], w.reg r = s.reg r) ∧
      (∀ r ∈ [.r1, .r2, .r3, .r4, .r5], w.reg r = none) ∧ w.reg .r0 = u.reg .r0 ∧ w.frames = s.frames ∧ w.pc = s.pc + 1

/-- The effective address is the base plus the signed offset, modulo 2^64. The wrap-around is the spec's own inference
('Effective addresses are computed modulo 2^64', rule R75). -/
def Obligations.EffectiveAddressWraps : Prop :=
  ∀ (base : Word) (off : BitVec 16), effectiveAddr base off = BitVec.ofInt 64 (base.toNat + off.toInt)

/-- The MEM loads read 1, 2, 4 or 8 bytes as an unsigned number and write all 64 bits of the destination. Rests on the
spec's own decisions D2 ('Data loads and stores use `HOST_ENDIAN`'), D16 (`Admit`, and bytes without a value), D17
(alignment). -/
def Obligations.ZeroExtendingLoadResults : Prop :=
  ∀ (s : State) (dst src : Reg) (off : BitVec 16) (base : Word) (bs : List Byte), s.reg src = some base →
    Expected.holds s.mem (effectiveAddr base off) bs → s.admits (effectiveAddr base off) bs.length .read = true →
    ∀ p ∈ ([(.ldxMemW dst src off, 4), (.ldxMemH dst src off, 2), (.ldxMemB dst src off, 1), (.ldxMemDw dst src off, 8)] :
        List (Instr × Nat)),
      p.2 = bs.length → exec p.1 s = .next { s with
        regs := s.regs.set dst (some (BitVec.ofNat 64 (Expected.hostNumber s.params.hostEndian bs))), pc := s.pc + 1 }

/-- The MEMSX loads read 1, 2 or 4 bytes as a two's complement number and extend it to all 64 bits. Rests on the
spec's own decisions D2 ('Data loads and stores use `HOST_ENDIAN`'), D16 (`Admit`, and bytes without a value), D17
(alignment). -/
def Obligations.SignExtendingLoadResults : Prop :=
  ∀ (s : State) (dst src : Reg) (off : BitVec 16) (base : Word) (bs : List Byte), s.reg src = some base →
    Expected.holds s.mem (effectiveAddr base off) bs → s.admits (effectiveAddr base off) bs.length .read = true →
    ∀ p ∈ ([(.ldxMemsxW dst src off, 4), (.ldxMemsxH dst src off, 2), (.ldxMemsxB dst src off, 1)] :
        List (Instr × Nat)),
      p.2 = bs.length → exec p.1 s = .next { s with
        regs := s.regs.set dst (some (BitVec.ofInt 64
          (if 256 ^ bs.length ≤ 2 * Expected.hostNumber s.params.hostEndian bs
            then (Expected.hostNumber s.params.hostEndian bs : Int) - 256 ^ bs.length
            else Expected.hostNumber s.params.hostEndian bs)))
        pc := s.pc + 1 }

/-- A store changes the bytes at its effective address and no other byte, and no register. Rests on the spec's own
decisions D2 ('Data loads and stores use `HOST_ENDIAN`'), D16 (`Admit`, and bytes without a value), D17 (alignment),
D24 (which bits of 'imm' ST stores). -/
def Obligations.StoreResults : Prop :=
  ∀ (s : State) (dst src : Reg) (off : BitVec 16) (imm : Word32) (base v : Word), s.reg dst = some base → s.reg src = some v →
    ∀ p ∈ (
        [(.stMemW dst off imm, 4, (BitVec.ofInt 64 imm.toInt).toNat),
         (.stMemH dst off imm, 2, (BitVec.ofInt 64 imm.toInt).toNat),
         (.stMemB dst off imm, 1, (BitVec.ofInt 64 imm.toInt).toNat),
         (.stMemDw dst off imm, 8, (BitVec.ofInt 64 imm.toInt).toNat), (.stxMemW dst src off, 4, v.toNat),
         (.stxMemH dst src off, 2, v.toNat), (.stxMemB dst src off, 1, v.toNat), (.stxMemDw dst src off, 8, v.toNat)] :
        List (Instr × Nat × Nat)),
      s.admits (effectiveAddr base off) p.2.1 .write = true →
      ∃ m : Memory, exec p.1 s = .next { s with mem := m, pc := s.pc + 1 } ∧
        Expected.storedOnly s.params.hostEndian s.mem m (effectiveAddr base off) p.2.1 p.2.2

/-- A load of any width inside a stored double word sees those bytes of it, on either host. Rests on the spec's own
decisions D2 ('Data loads and stores use `HOST_ENDIAN`'), D16 (`Admit`, and bytes without a value), D17 (alignment).
-/
def Obligations.StoreThenLoadSeesTheBytes : Prop :=
  ∀ (s : State) (r dst src : Reg) (off off' : BitVec 16) (base v : Word) (k : Nat), s.reg dst = some base →
    s.reg src = some v → (effectiveAddr base off').toNat = (effectiveAddr base off).toNat + k →
    s.admits (effectiveAddr base off) 8 .write = true →
    ∀ p ∈ ([(.ldxMemB r dst off', 1), (.ldxMemH r dst off', 2), (.ldxMemW r dst off', 4), (.ldxMemDw r dst off', 8)] :
        List (Instr × Nat)),
      k + p.2 ≤ 8 → s.admits (effectiveAddr base off') p.2 .read = true →
      ∃ t, exec (.stxMemDw dst src off) s = .next t ∧
        exec p.1 t = .next { t with
          regs := t.regs.set r (some (BitVec.ofNat 64
            (v.toNat / 256 ^ (if s.params.hostEndian = .little then k else 8 - k - p.2) % 256 ^ p.2)))
          pc := t.pc + 1 }

/-- ADD, OR, AND and XOR without FETCH replace the bytes by old op v and write no register. Rests on the spec's own
decisions D2 ('Data loads and stores use `HOST_ENDIAN`'), D16 (`Admit`, and bytes without a value), D17 (alignment),
D25 (the halves a 32-bit atomic uses). -/
def Obligations.SimpleAtomicResults : Prop :=
  ∀ (s : State) (dst src : Reg) (off : BitVec 16) (base v : Word) (bs : List Byte), s.reg dst = some base →
    s.reg src = some v → Expected.holds s.mem (effectiveAddr base off) bs →
    s.admits (effectiveAddr base off) bs.length .atomic = true →
    ∀ p ∈ (
        [(.stxAtomicWAdd dst src off, 4, fun x y => x + y), (.stxAtomicDwAdd dst src off, 8, fun x y => x + y),
         (.stxAtomicWOr dst src off, 4, fun x y => x ||| y), (.stxAtomicDwOr dst src off, 8, fun x y => x ||| y),
         (.stxAtomicWAnd dst src off, 4, fun x y => x &&& y), (.stxAtomicDwAnd dst src off, 8, fun x y => x &&& y),
         (.stxAtomicWXor dst src off, 4, fun x y => x ^^^ y), (.stxAtomicDwXor dst src off, 8, fun x y => x ^^^ y)] :
        List (Instr × Nat × (Nat → Nat → Nat))),
      p.2.1 = bs.length →
      ∃ m : Memory, exec p.1 s = .next { s with mem := m, pc := s.pc + 1 } ∧
        Expected.storedOnly s.params.hostEndian s.mem m (effectiveAddr base off) p.2.1
          (p.2.2 (Expected.hostNumber s.params.hostEndian bs) (v.toNat % 256 ^ p.2.1) % 256 ^ p.2.1)

/-- ADD, OR, AND, XOR with FETCH and XCHG also give the source register the old value, zero-extended. Rests on the
spec's own decisions D2 ('Data loads and stores use `HOST_ENDIAN`'), D16 (`Admit`, and bytes without a value), D17
(alignment), D25 (the halves a 32-bit atomic uses). -/
def Obligations.FetchingAtomicResults : Prop :=
  ∀ (s : State) (dst src : Reg) (off : BitVec 16) (base v : Word) (bs : List Byte), s.reg dst = some base →
    s.reg src = some v → Expected.holds s.mem (effectiveAddr base off) bs →
    s.admits (effectiveAddr base off) bs.length .atomic = true →
    ∀ p ∈ (
        [(.stxAtomicWAddFetch dst src off, 4, fun x y => x + y),
         (.stxAtomicDwAddFetch dst src off, 8, fun x y => x + y),
         (.stxAtomicWOrFetch dst src off, 4, fun x y => x ||| y),
         (.stxAtomicDwOrFetch dst src off, 8, fun x y => x ||| y),
         (.stxAtomicWAndFetch dst src off, 4, fun x y => x &&& y),
         (.stxAtomicDwAndFetch dst src off, 8, fun x y => x &&& y),
         (.stxAtomicWXorFetch dst src off, 4, fun x y => x ^^^ y),
         (.stxAtomicDwXorFetch dst src off, 8, fun x y => x ^^^ y), (.stxAtomicWXchg dst src off, 4, fun _ y => y),
         (.stxAtomicDwXchg dst src off, 8, fun _ y => y)] :
        List (Instr × Nat × (Nat → Nat → Nat))),
      p.2.1 = bs.length →
      ∃ m : Memory, exec p.1 s = .next { s with
          regs := s.regs.set src (some (BitVec.ofNat 64 (Expected.hostNumber s.params.hostEndian bs))), mem := m, pc := s.pc + 1 } ∧
        Expected.storedOnly s.params.hostEndian s.mem m (effectiveAddr base off) p.2.1
          (p.2.2 (Expected.hostNumber s.params.hostEndian bs) (v.toNat % 256 ^ p.2.1) % 256 ^ p.2.1)

/-- CMPXCHG stores the source where memory equals R0, and gives R0 the old value in either case. Rests on the spec's
own decisions D2 ('Data loads and stores use `HOST_ENDIAN`'), D16 (`Admit`, and bytes without a value), D17
(alignment), D25 (the halves a 32-bit atomic uses). -/
def Obligations.CompareExchangeResults : Prop :=
  ∀ (s : State) (dst src : Reg) (off : BitVec 16) (base v : Word) (bs : List Byte), s.reg dst = some base →
    s.reg src = some v → Expected.holds s.mem (effectiveAddr base off) bs →
    s.admits (effectiveAddr base off) bs.length .atomic = true →
    ∀ e : Word, s.reg .r0 = some e →
    ∀ p ∈ ([(.stxAtomicWCmpxchg dst src off, 4), (.stxAtomicDwCmpxchg dst src off, 8)] : List (Instr × Nat)),
      p.2 = bs.length →
      ∃ m : Memory, exec p.1 s = .next { s with
          regs := s.regs.set .r0 (some (BitVec.ofNat 64 (Expected.hostNumber s.params.hostEndian bs))), mem := m, pc := s.pc + 1 } ∧
        if Expected.hostNumber s.params.hostEndian bs = e.toNat % 256 ^ p.2 then
          Expected.storedOnly s.params.hostEndian s.mem m (effectiveAddr base off) p.2 (v.toNat % 256 ^ p.2)
        else m = s.mem

/-- Admit lets no access wrap, be misaligned, or touch a dead frame or a code address; what is atomic can be read and
written. Rests on the spec's own decisions D10 (what a program-local call saves, and the stack frames), D16 (`Admit`,
and bytes without a value), D17 (alignment), D27 (the platform functions). That the platform's part of Admit is a list
of regions and grants is the model's choice of assumption 5. That a code address stands for the eight bytes of a slot
is that of assumption 25. -/
def Obligations.AdmitConstraints : Prop :=
  ∀ (p : Params) (d : Nat) (addr : Word) (n : Nat) (kind : AccessKind), 0 < n → p.admits d addr n kind = true →
    addr.toNat + n ≤ 2 ^ 64 ∧ ((kind = .atomic ∨ p.alignPolicy = .natural) → addr.toNat % n = 0) ∧
    (∀ e a, d < e → e ≤ p.maxCallDepth → addr.toNat ≤ a → a < addr.toNat + n →
      ¬(p.frameBase e ≤ a ∧ a < p.frameTop e)) ∧
    (∀ c ∈ p.codeAddr, addr.toNat + n ≤ c.2.toNat ∨ c.2.toNat + 8 ≤ addr.toNat) ∧
    (kind = .atomic → p.admits d addr n .read = true ∧ p.admits d addr n .write = true)

/-- Admit lets the program access the frame of every live depth. Rests on the spec's own decisions D10 (what a
program-local call saves, and the stack frames), D16 (`Admit`, and bytes without a value). That the platform's part of
Admit is a list of regions and grants is the model's choice of assumption 5. -/
def Obligations.AdmitLiveFrames : Prop :=
  ∀ (p : Params) (d e : Nat) (addr : Word) (n : Nat) (kind : AccessKind), stackLayoutOk p = true → e ≤ d →
    d ≤ p.maxCallDepth → 0 < n → (p.framePointer e).toNat - p.stackSize ≤ addr.toNat →
    addr.toNat + n ≤ (p.framePointer e).toNat →
    ((kind = .atomic ∨ p.alignPolicy = .natural) → addr.toNat % n = 0) → p.admits d addr n kind = true

/-- A byte of memory changes only as one of an admitted store's own bytes, by a helper's write, or with its frame by a
call or return. Rests on the spec's own decisions D10 (what a program-local call saves, and the stack frames), D11
(the helper call contract), D16 (`Admit`, and bytes without a value). That the platform's part of Admit is a list of
regions and grants is the model's choice of assumption 5. -/
def Obligations.MemoryChangesOnlyWhereAdmitted : Prop :=
  ∀ (s t : State) (a : Nat), step s = .next t → t.mem.read a ≠ s.mem.read a →
    ∃ i, decodeAt s s.pc = .ok i ∧
      (((i.fields.opcode &&& 7#8 = 2#8 ∨ i.fields.opcode &&& 7#8 = 3#8) ∧
          ∃ (r : Reg) (base : Word) (n : Nat) (kind : AccessKind), r.num = i.fields.dst ∧ s.reg r = some base ∧
            n = Expected.sizeOf i.fields.opcode ∧
            kind = (if i.fields.opcode = 0xc3 ∨ i.fields.opcode = 0xdb then .atomic else .write) ∧
            s.admits (effectiveAddr base i.fields.offset) n kind = true ∧
            (effectiveAddr base i.fields.offset).toNat ≤ a ∧ a < (effectiveAddr base i.fields.offset).toNat + n) ∨
        (∃ (table : HelperTable) (id : Word32) (h : Helper) (args : List Word) (r0 : Word)
            (writes : List (Word × Option Byte)),
          (i, table) ∈ [(.jmpCallHelper id, .static), (.jmpCallBtf id, .btf)] ∧
          lookupTable (s.params.helperTable table) id = some h ∧ (argRegs.take h.arity).map s.reg = args.map some ∧
          runHelper table id h.body args s.mem s.draws = .returns r0 writes ∧ ∃ w ∈ writes, w.1.toNat = a) ∨
        (∃ imm, i = .jmpCallLocal imm ∧ s.params.frameBase (s.depth + 1) ≤ a ∧ a < s.params.frameTop (s.depth + 1) ∧
          t.mem.read a = none) ∨
        (i = .jmpExit ∧ s.frames ≠ [] ∧ s.params.frameBase s.depth ≤ a ∧ a < s.params.frameTop s.depth ∧
          t.mem.read a = none))

/-- The 64-bit immediate instructions write the constant or the platform address and go on two slots further. Rests on
the spec's own decisions D26 (LD_IMM64 concatenates), D27 (the platform functions). -/
def Obligations.WideImmediateResults : Prop :=
  ∀ (s : State) (dst : Reg) (imm next : Word32) (v : Word),
    ∀ p ∈ ([(.ldImm64 dst imm next, some (BitVec.ofNat 64 (next.toNat * 2 ^ 32 + imm.toNat))),
        (.ldMapByFd dst imm, lookupTable s.params.mapByFd imm), (.ldMapByIdx dst imm, lookupTable s.params.mapByIdx imm),
        (.ldVarAddr dst imm, lookupTable s.params.varAddr imm),
        (.ldCodeAddr dst imm, lookupTable s.params.codeAddr (s.pc, imm)),
        (.ldMapValByFd dst imm next, ((lookupTable s.params.mapByFd imm).bind (lookupTable s.params.mapVal)).map
          fun x => BitVec.ofNat 64 (x.toNat + next.toNat)),
        (.ldMapValByIdx dst imm next, ((lookupTable s.params.mapByIdx imm).bind (lookupTable s.params.mapVal)).map
          fun x => BitVec.ofNat 64 (x.toNat + next.toNat))] : List (Instr × Option Word)),
      p.2 = some v → exec p.1 s = .next { s with regs := s.regs.set dst (some v), pc := s.pc + 2 }

/-- Under PACKET = linux a packet load reads its bytes in network order into R0, or ends the run with result 0. Rests
on the spec's own decision D28 (PACKET). -/
def Obligations.PacketLoadResults : Prop :=
  ∀ (s : State) (pkt : List Byte) (src : Reg) (imm : Word32) (v c : Word), s.params.packet = .linux pkt →
    s.reg src = some v → s.reg .r6 = some c →
    ∀ p ∈ ([(.ldAbsW imm, 4, imm.toInt), (.ldAbsH imm, 2, imm.toInt), (.ldAbsB imm, 1, imm.toInt),
        (.ldIndW src imm, 4, (v.toInt + imm.toInt).bmod (2 ^ 32)), (.ldIndH src imm, 2, (v.toInt + imm.toInt).bmod (2 ^ 32)),
        (.ldIndB src imm, 1, (v.toInt + imm.toInt).bmod (2 ^ 32))] : List (Instr × Nat × Int)),
      (∀ (l bs r : List Byte), pkt = l ++ bs ++ r → p.2.2 = l.length → bs.length = p.2.1 →
        exec p.1 s = .next { s with
          regs := { s.regs with
            r0 := some (BitVec.ofNat 64 (Expected.hostNumber .big bs))
            r1 := none
            r2 := none
            r3 := none
            r4 := none
            r5 := none }
          pc := s.pc + 1 }) ∧
      (p.2.2 < 0 ∨ pkt.length < p.2.2 + p.2.1 → exec p.1 s = .next { s with status := .halted 0 })

/-- No instruction changes the program or a parameter. Rests on the spec's own decision D30 (the program is outside
data memory). -/
def Obligations.ProgramAndParametersNeverChange : Prop :=
  ∀ (i : Instr) (s t : State), exec i s = .next t → t.program = s.program ∧ t.params = s.params

/-- Only the program-local CALL and EXIT change the call stack, or R10 while it is read-only. Rests on the spec's own
decisions D5 ('R10 is the frame pointer', read-only by default), D10 (what a program-local call saves, and the stack
frames). -/
def Obligations.OnlyCallAndExitChangeFramesAndR10 : Prop :=
  ∀ s t : State, step s = .next t → (∀ imm, decodeAt s s.pc ≠ .ok (.jmpCallLocal imm)) → decodeAt s s.pc ≠ .ok .jmpExit →
    t.frames = s.frames ∧ (s.params.r10ReadOnly = true → t.reg .r10 = s.reg .r10)

/-- Outside calls, EXIT and packet loads, an instruction changes no register but the one it names as written. Rests on
the spec's own decisions D10 (what a program-local call saves, and the stack frames), D11 (the helper call contract),
D25 (the halves a 32-bit atomic uses). -/
def Obligations.RegistersWrittenAreTheDestination : Prop :=
  ∀ (i : Instr) (s t : State) (q : Reg), exec i s = .next t → i.fields.opcode ≠ 0x85 → i ≠ .jmpExit → i.group ≠ .packet →
    i.writtenReg ≠ some q →
    ((∃ dst src off, i = .stxAtomicWCmpxchg dst src off ∨ i = .stxAtomicDwCmpxchg dst src off) → q ≠ .r0) →
    t.reg q = s.reg q

/-- Every step keeps the invariant of the machine. Rests on the spec's own decisions D5 ('R10 is the frame pointer',
read-only by default), D10 (what a program-local call saves, and the stack frames), D15 (a bad jump target faults at
the jump), D16 (`Admit`, and bytes without a value). That a helper may leave a value in a dead frame, and that a frame
holds none when it becomes live, is assumption 11. -/
def Obligations.StepKeepsTheInvariant : Prop :=
  ∀ s t : State, s.Inv → step s = .next t → t.Inv

/-- The state after reset has the invariant. Rests on the spec's own decisions D5 ('R10 is the frame pointer',
read-only by default), D8 (the entry state), D10 (what a program-local call saves, and the stack frames). The values
of R0 to R9 are the model's choice of assumption 2. -/
def Obligations.ResetHasTheInvariant : Prop :=
  State.reset.Inv

/-- Every state that a launched program reaches has the invariant. Rests on the spec's own decisions D5 ('R10 is the
frame pointer', read-only by default), D8 (the entry state), D10 (what a program-local call saves, and the stack
frames), D15 (a bad jump target faults at the jump), D16 (`Admit`, and bytes without a value), D18 (what other agents
may do). That other agents take part in a run by changes of single shared bytes is the model's choice of assumption 7.
That a program comes from outside through launch is the model's choice of assumption 6. -/
def Obligations.LaunchedRunsKeepTheInvariant : Prop :=
  ∀ (p : Params) (program : List Slot) (contents : List (Word × Byte)) (s t : State),
    launch p program contents = .next s → s.Reaches t → t.Inv

/-- What other agents do between two instructions changes only bytes of shared regions, and no byte of the stack.
Rests on the spec's own decision D18 (what other agents may do). That the environment is an operation of its own,
taken between the steps of a run, is the model's choice of assumption 7. -/
def Obligations.OtherAgentsChangeOnlySharedBytes : Prop :=
  ∀ (s : State) (changes : List (Word × Byte)),
    s.envStep changes = { s with mem := (s.envStep changes).mem } ∧
    (∀ a, (s.params.sharedByte a = false ∨ s.params.stackByte a = true) →
      (s.envStep changes).mem.read a = s.mem.read a) ∧
    (s.Inv → (s.envStep changes).Inv)

/-- A launch that is not refused starts in the entry state, with the placed bytes in memory and no value in any stack
byte. Rests on the spec's own decisions D6 ('Registers start without a value (`UNWRITTEN`)'), D8 (the entry state),
D10 (what a program-local call saves, and the stack frames), D16 (`Admit`, and bytes without a value). That a byte
outside the stack in which nothing was placed holds no value is the model's choice of assumption 4. That a program
comes from outside through launch is the model's choice of assumption 6. -/
def Obligations.LaunchGivesTheEntryState : Prop :=
  ∀ (p : Params) (program : List Slot) (contents : List (Word × Byte)), groupsClosed p = true →
    fitsMaxSlots p program = true → stackLayoutOk p = true →
    ∃ s, launch p program contents = .next s ∧ s.pc = 0 ∧ s.frames = [] ∧ s.status = .running ∧ s.program = program ∧
      s.params = p ∧ s.regs = ⟨none, p.entryRegs.r1, p.entryRegs.r2, p.entryRegs.r3, p.entryRegs.r4, p.entryRegs.r5, none,
        none, none, none, some (p.framePointer 0)⟩ ∧
      (∀ a, p.stackByte a = true → s.mem.read a = none) ∧
      (∀ (l r : List (Word × Byte)) (c : Word × Byte), contents = l ++ c :: r → (∀ x ∈ r, x.1 ≠ c.1) →
        p.stackByte c.1.toNat = false → s.mem.read c.1.toNat = some c.2) ∧
      ∀ a, (∀ c ∈ contents, c.1.toNat ≠ a) → s.mem.read a = none

/-- A program longer than MAX_SLOTS, and groups without base32 or not closed, are refused before the run. Rests on the
spec's own decisions D10 (what a program-local call saves, and the stack frames), D31 (limits). That the refusals are
answered by launch and not by step is the model's choice of assumption 12. -/
def Obligations.LaunchRefusals : Prop :=
  ∀ (p : Params) (program : List Slot) (contents : List (Word × Byte)),
    ((.base32 ∉ p.groups ∨ (.atomic64 ∈ p.groups ∧ .atomic32 ∉ p.groups) ∨ (.divmul64 ∈ p.groups ∧ .divmul32 ∉ p.groups)) →
      launch p program contents = .refused .groupsNotClosed) ∧
    (groupsClosed p = true → (∀ n, p.maxSlots = some n → n < program.length →
      launch p program contents = .refused .programTooLong) ∧
      (fitsMaxSlots p program = true → stackLayoutOk p = false →
        launch p program contents = .refused .badStackLayout))

/-- After reset the machine runs at slot 0 with no frame, no memory, and (the model's choice) every register written.
Rests on the spec's own decisions D8 (the entry state), D34 (execution past the last slot). The values of R0 to R9 are
the model's choice of assumption 2, and 0x8000 that of assumption 3. -/
def Obligations.ResetState : Prop :=
  State.reset.pc = 0 ∧ State.reset.frames = [] ∧ State.reset.status = .running ∧ State.reset.mem = [] ∧
    State.reset.program = [] ∧ State.reset.reg .r10 = some 0x8000 ∧
    (∀ r, r ≠ .r10 → State.reset.reg r = some 0) ∧
    step State.reset = .next { State.reset with status := .faulted (.fetchOutOfRange 0) }

/-- A byte swap of width 64 is in base64, one of width 16 or 32 in base32; every other instruction but EXIT as rule R3
places it (rule R243). -/
def Obligations.SwapGroupsFollowTheWidth : Prop :=
  (∀ (dst : Reg), ∀ p ∈ ([(.aluEndToLe16 dst, 16), (.aluEndToLe32 dst, 32), (.aluEndToLe64 dst, 64), (.aluEndToBe16 dst, 16),
      (.aluEndToBe32 dst, 32), (.aluEndToBe64 dst, 64), (.alu64EndBswap16 dst, 16), (.alu64EndBswap32 dst, 32),
      (.alu64EndBswap64 dst, 64)] : List (Instr × Nat)),
    p.1.group = if p.2 = 64 then .base64 else .base32) ∧
  ∀ i : Instr, i ≠ .jmpExit → i.group = Expected.groupOf i.fields.opcode i.fields.imm
end

