-- ==== Sys2Proof/Laws/Decode.lean ====
section
/-!
SUPPORT. Laws/Decode.lean: the decoder undoes the encoder: fields and slots, slots and bytes, registers and their
numbers, and which class of opcode each decoder of a class handles.
-/

namespace Sys2Proof

@[simp] theorem Reg.ofNum_num (r : Reg) : Reg.ofNum r.num = some r := by cases r <;> rfl

/-- A register number that names a register is the number of that register. -/
theorem Reg.num_of_ofNum (n : BitVec 4) (r : Reg) (h : Reg.ofNum n = some r) : r.num = n := by
  revert n r
  decide

@[simp] theorem useReg_num (r : Reg) (k : Reg → Decoded) : useReg r.num k = k r := by cases r <;> rfl

theorem decodeFields_ld (f : Fields) (second : Option Fields) (o : BitVec 8) (ho : f.opcode = o)
    (hc : (o &&& 7#8).toNat = 0) : decodeFields f second = decodeLd f second := by
  simp only [decodeFields, ho, hc]

theorem decodeFields_ldx (f : Fields) (second : Option Fields) (o : BitVec 8) (ho : f.opcode = o)
    (hc : (o &&& 7#8).toNat = 1) : decodeFields f second = decodeLdx f := by
  simp only [decodeFields, ho, hc]

theorem decodeFields_st (f : Fields) (second : Option Fields) (o : BitVec 8) (ho : f.opcode = o)
    (hc : (o &&& 7#8).toNat = 2) : decodeFields f second = decodeSt f := by
  simp only [decodeFields, ho, hc]

theorem decodeFields_stx (f : Fields) (second : Option Fields) (o : BitVec 8) (ho : f.opcode = o)
    (hc : (o &&& 7#8).toNat = 3) : decodeFields f second = decodeStx f := by
  simp only [decodeFields, ho, hc]

theorem decodeFields_alu (f : Fields) (second : Option Fields) (o : BitVec 8) (ho : f.opcode = o)
    (hc : (o &&& 7#8).toNat = 4) : decodeFields f second = decodeAlu f := by
  simp only [decodeFields, ho, hc]

theorem decodeFields_jmp (f : Fields) (second : Option Fields) (o : BitVec 8) (ho : f.opcode = o)
    (hc : (o &&& 7#8).toNat = 5) : decodeFields f second = decodeJmp f := by
  simp only [decodeFields, ho, hc]

theorem decodeFields_jmp32 (f : Fields) (second : Option Fields) (o : BitVec 8) (ho : f.opcode = o)
    (hc : (o &&& 7#8).toNat = 6) : decodeFields f second = decodeJmp32 f := by
  simp only [decodeFields, ho, hc]

theorem decodeFields_alu64 (f : Fields) (second : Option Fields) (o : BitVec 8) (ho : f.opcode = o)
    (hc : (o &&& 7#8).toNat = 7) : decodeFields f second = decodeAlu64 f := by
  simp only [decodeFields, ho, hc]

/-- The lowest byte of bits with a byte appended below them. -/
theorem append_low {n : Nat} (x : BitVec n) (b : Byte) : (x ++ b).extractLsb' 0 8 = b := by
  apply BitVec.eq_of_getLsbD_eq
  intro i h
  simp [BitVec.getLsbD_append, h]

/-- A higher byte of bits with a byte appended below them. -/
theorem append_high {n : Nat} (x : BitVec n) (b : Byte) (k : Nat) :
    (x ++ b).extractLsb' (8 * (k + 1)) 8 = x.extractLsb' (8 * k) 8 := by
  apply BitVec.eq_of_getLsbD_eq
  intro i h
  simp only [BitVec.getLsbD_extractLsb', BitVec.getLsbD_append, h, decide_true, Bool.true_and]
  rw [if_neg (by omega)]
  congr 1
  omega

/-- The bytes of a slot that is made of bytes. -/
theorem slotByte_slotOfBytes (b0 b1 b2 b3 b4 b5 b6 b7 : Byte) :
    slotByte (slotOfBytes b0 b1 b2 b3 b4 b5 b6 b7) 0 = b0 ∧ slotByte (slotOfBytes b0 b1 b2 b3 b4 b5 b6 b7) 1 = b1 ∧
    slotByte (slotOfBytes b0 b1 b2 b3 b4 b5 b6 b7) 2 = b2 ∧ slotByte (slotOfBytes b0 b1 b2 b3 b4 b5 b6 b7) 3 = b3 ∧
    slotByte (slotOfBytes b0 b1 b2 b3 b4 b5 b6 b7) 4 = b4 ∧ slotByte (slotOfBytes b0 b1 b2 b3 b4 b5 b6 b7) 5 = b5 ∧
    slotByte (slotOfBytes b0 b1 b2 b3 b4 b5 b6 b7) 6 = b6 ∧ slotByte (slotOfBytes b0 b1 b2 b3 b4 b5 b6 b7) 7 = b7 := by
  exact ⟨append_low _ _, (append_high _ _ 0).trans (append_low _ _),
    (append_high _ _ 1).trans ((append_high _ _ 0).trans (append_low _ _)),
    (append_high _ _ 2).trans ((append_high _ _ 1).trans ((append_high _ _ 0).trans (append_low _ _))),
    (append_high _ _ 3).trans ((append_high _ _ 2).trans ((append_high _ _ 1).trans ((append_high _ _ 0).trans (append_low _ _)))),
    (append_high _ _ 4).trans ((append_high _ _ 3).trans ((append_high _ _ 2).trans ((append_high _ _ 1).trans ((append_high _ _ 0).trans (append_low _ _))))),
    (append_high _ _ 5).trans ((append_high _ _ 4).trans ((append_high _ _ 3).trans ((append_high _ _ 2).trans ((append_high _ _ 1).trans ((append_high _ _ 0).trans (append_low _ _)))))),
    (append_high _ _ 6).trans ((append_high _ _ 5).trans ((append_high _ _ 4).trans ((append_high _ _ 3).trans ((append_high _ _ 2).trans ((append_high _ _ 1).trans ((append_high _ _ 0).trans (BitVec.extractLsb'_eq_self)))))))⟩

/-- A slot is made of its bytes. -/
theorem slotOfBytes_slotByte (s : Slot) :
    slotOfBytes (slotByte s 0) (slotByte s 1) (slotByte s 2) (slotByte s 3) (slotByte s 4) (slotByte s 5) (slotByte s 6)
      (slotByte s 7) = s := by
  have h6 : slotByte s 7 ++ slotByte s 6 = s.extractLsb' 48 16 := BitVec.extractLsb'_append_extractLsb'_eq_extractLsb' rfl
  have h5 := (congrArg (· ++ slotByte s 5) h6).trans (BitVec.extractLsb'_append_extractLsb'_eq_extractLsb' rfl)
  have h4 := (congrArg (· ++ slotByte s 4) h5).trans (BitVec.extractLsb'_append_extractLsb'_eq_extractLsb' rfl)
  have h3 := (congrArg (· ++ slotByte s 3) h4).trans (BitVec.extractLsb'_append_extractLsb'_eq_extractLsb' rfl)
  have h2 := (congrArg (· ++ slotByte s 2) h3).trans (BitVec.extractLsb'_append_extractLsb'_eq_extractLsb' rfl)
  have h1 := (congrArg (· ++ slotByte s 1) h2).trans (BitVec.extractLsb'_append_extractLsb'_eq_extractLsb' rfl)
  have h0 := (congrArg (· ++ slotByte s 0) h1).trans (BitVec.extractLsb'_append_extractLsb'_eq_extractLsb' rfl)
  exact h0.trans BitVec.extractLsb'_eq_self

/-- The bytes of a slot are taken as that slot. -/
theorem takeSlot_bytes (s : Slot) (rest : List Byte) : takeSlot (s.bytes ++ rest) = some (s, rest) := by
  simp only [Slot.bytes, List.cons_append, List.nil_append, takeSlot, slotOfBytes_slotByte]

/-- The two nibbles of a byte. -/

theorem nibbles_append (hi lo : BitVec 4) :
    (hi ++ lo : Byte).extractLsb' 0 4 = lo ∧ (hi ++ lo : Byte).extractLsb' 4 4 = hi := by
  revert hi lo
  decide

theorem append_nibbles (b : Byte) : b.extractLsb' 4 4 ++ b.extractLsb' 0 4 = b := by
  revert b
  decide

/-- Sixteen bits are made of their two bytes. -/
theorem append_bytes16 (v : BitVec 16) : v.extractLsb' 8 8 ++ v.extractLsb' 0 8 = v :=
  (BitVec.extractLsb'_append_extractLsb'_eq_extractLsb' rfl).trans BitVec.extractLsb'_eq_self

/-- Thirty-two bits are made of their four bytes. -/
theorem append_bytes32 (v : BitVec 32) :
    v.extractLsb' 24 8 ++ v.extractLsb' 16 8 ++ v.extractLsb' 8 8 ++ v.extractLsb' 0 8 = v := by
  have h2 : v.extractLsb' 24 8 ++ v.extractLsb' 16 8 = v.extractLsb' 16 16 :=
    BitVec.extractLsb'_append_extractLsb'_eq_extractLsb' rfl
  have h1 := (congrArg (· ++ v.extractLsb' 8 8) h2).trans (BitVec.extractLsb'_append_extractLsb'_eq_extractLsb' rfl)
  have h0 := (congrArg (· ++ v.extractLsb' 0 8) h1).trans (BitVec.extractLsb'_append_extractLsb'_eq_extractLsb' rfl)
  exact h0.trans BitVec.extractLsb'_eq_self

/-- The fields that a slot was made of (rules R101, R102). -/
@[simp] theorem Fields.ofSlot_toSlot (e : Endian) (f : Fields) : Fields.ofSlot e (f.toSlot e) = f := by
  obtain ⟨op, d, s, off, imm⟩ := f
  cases e <;>
    simp only [Fields.ofSlot, Fields.toSlot, slotByte_slotOfBytes, nibbles_append, Nat.mul_zero, Nat.mul_one,
      Nat.reduceMul, append_bytes16, append_bytes32]

/-- A slot is the slot of its fields (rules R101, R102). -/
@[simp] theorem Fields.toSlot_ofSlot (e : Endian) (s : Slot) : (Fields.ofSlot e s).toSlot e = s := by
  have h16 (a b : Byte) : (a ++ b : BitVec 16).extractLsb' (8 * 0) 8 = b ∧ (a ++ b : BitVec 16).extractLsb' (8 * 1) 8 = a :=
    ⟨append_low _ _, (append_high _ _ 0).trans BitVec.extractLsb'_eq_self⟩
  have h32 (a b c d : Byte) :
      (a ++ b ++ c ++ d : BitVec 32).extractLsb' (8 * 0) 8 = d ∧ (a ++ b ++ c ++ d : BitVec 32).extractLsb' (8 * 1) 8 = c ∧
      (a ++ b ++ c ++ d : BitVec 32).extractLsb' (8 * 2) 8 = b ∧ (a ++ b ++ c ++ d : BitVec 32).extractLsb' (8 * 3) 8 = a :=
    ⟨append_low _ _, (append_high _ _ 0).trans (append_low _ _),
      (append_high _ _ 1).trans ((append_high _ _ 0).trans (append_low _ _)),
      (append_high _ _ 2).trans ((append_high _ _ 1).trans ((append_high _ _ 0).trans BitVec.extractLsb'_eq_self))⟩
  cases e <;>
    simp only [Fields.ofSlot, Fields.toSlot, append_nibbles, h16, h32, slotOfBytes_slotByte]

end Sys2Proof
end

