-- ==== Sys2Proof/Laws/DecodeInv.lean ====
section
/-!
SUPPORT. Laws/DecodeInv.lean: the encoder undoes the decoder: fields that decode are the fields of the instruction they
decode to (rules R113, R120, R127 to R130, R133, R134).
-/

namespace Sys2Proof

theorem useReg_eq_ok {n : BitVec 4} {k : Reg → Decoded} {i : Instr} :
    useReg n k = .ok i ↔ ∃ r, n = r.num ∧ k r = .ok i := by
  constructor
  · intro h
    unfold useReg at h
    split at h
    · exact ⟨_, (Reg.num_of_ofNum _ _ ‹_›).symm, h⟩
    · cases h
  · rintro ⟨r, rfl, h⟩
    rwa [useReg_num]

theorem requireZero_eq_ok {z : Bool} {k : Decoded} {i : Instr} : requireZero z k = .ok i ↔ z = true ∧ k = .ok i := by
  cases z <;> simp [requireZero]


theorem eq_of_toNat {w : Nat} {o : BitVec w} {n : Nat} (h : o.toNat = n) : o = BitVec.ofNat w n := by
  rw [← h, BitVec.ofNat_toNat, BitVec.setWidth_eq]

theorem formDstImm_ok {f : Fields} {c : Reg → Word32 → Instr} {i : Instr} (h : formDstImm f c = .ok i) :
    ∃ d, f.src = 0 ∧ f.dst = d.num ∧ i = c d f.imm := by
  obtain ⟨hz, d, hd, h⟩ := (requireZero_eq_ok.trans (and_congr_right fun _ => useReg_eq_ok)).mp h
  cases h
  exact ⟨d, eq_of_beq hz, hd, rfl⟩

theorem formDstSrc_ok {f : Fields} {c : Reg → Reg → Instr} {i : Instr} (h : formDstSrc f c = .ok i) :
    ∃ d s, f.imm = 0 ∧ f.dst = d.num ∧ f.src = s.num ∧ i = c d s := by
  simp only [formDstSrc, requireZero_eq_ok, useReg_eq_ok, beq_iff_eq, Except.ok.injEq] at h
  obtain ⟨hz, d, hd, s, hs, h⟩ := h
  exact ⟨d, s, hz, hd, hs, h.symm⟩

theorem formDst_ok {f : Fields} {c : Reg → Instr} {i : Instr} (h : formDst f c = .ok i) :
    ∃ d, f.src = 0 ∧ f.dst = d.num ∧ i = c d := by
  simp only [formDst, requireZero_eq_ok, useReg_eq_ok, beq_iff_eq, Except.ok.injEq] at h
  obtain ⟨hz, d, hd, h⟩ := h
  exact ⟨d, hz, hd, h.symm⟩

theorem formDstOffImm_ok {f : Fields} {c : Reg → BitVec 16 → Word32 → Instr} {i : Instr}
    (h : formDstOffImm f c = .ok i) : ∃ d, f.src = 0 ∧ f.dst = d.num ∧ i = c d f.offset f.imm := by
  simp only [formDstOffImm, requireZero_eq_ok, useReg_eq_ok, beq_iff_eq, Except.ok.injEq] at h
  obtain ⟨hz, d, hd, h⟩ := h
  exact ⟨d, hz, hd, h.symm⟩

theorem formDstSrcOffAnyImm_ok {f : Fields} {c : Reg → Reg → BitVec 16 → Instr} {i : Instr}
    (h : formDstSrcOffAnyImm f c = .ok i) : ∃ d s, f.dst = d.num ∧ f.src = s.num ∧ i = c d s f.offset := by
  simp only [formDstSrcOffAnyImm, useReg_eq_ok, Except.ok.injEq] at h
  obtain ⟨d, hd, s, hs, h⟩ := h
  exact ⟨d, s, hd, hs, h.symm⟩

theorem formDstSrcOff_ok {f : Fields} {c : Reg → Reg → BitVec 16 → Instr} {i : Instr} (h : formDstSrcOff f c = .ok i) :
    ∃ d s, f.imm = 0 ∧ f.dst = d.num ∧ f.src = s.num ∧ i = c d s f.offset := by
  obtain ⟨hz, h⟩ := requireZero_eq_ok.mp h
  obtain ⟨d, s, hd, hs, h⟩ := formDstSrcOffAnyImm_ok h
  exact ⟨d, s, eq_of_beq hz, hd, hs, h⟩

theorem noOffset_ok {f : Fields} {k : Decoded} {i : Instr} (h : noOffset f k = .ok i) : f.offset = 0 ∧ k = .ok i := by
  obtain ⟨hz, h⟩ := requireZero_eq_ok.mp h
  exact ⟨eq_of_beq hz, h⟩

theorem selectSigned_ok {f : Fields} {u v : Decoded} {i : Instr} (h : selectSigned f u v = .ok i) :
    (f.offset = 0#16 ∧ u = .ok i) ∨ (f.offset = 1#16 ∧ v = .ok i) := by
  unfold selectSigned at h
  split at h
  · exact .inl ⟨eq_of_toNat ‹_›, h⟩
  · exact .inr ⟨eq_of_toNat ‹_›, h⟩
  · cases h

/-- An instruction that is in a slot with these fields: its own fields are these, and it has no second slot. -/
abbrev InSlot (f : Fields) (i : Instr) : Prop := i.fields = f ∧ i.nextImm = none

/-- A slot in the form `formDstImm` encodes the constructor's instruction. -/
theorem inv_dstImm {f : Fields} {c : Reg → Word32 → Instr} {i : Instr} {o : BitVec 8} {off : BitVec 16}
    (ho : f.opcode = o) (hf : f.offset = off) (hc : ∀ d imm, InSlot (fieldsDstImm o 0 off d imm) (c d imm))
    (h : formDstImm f c = .ok i) : InSlot f i := by
  obtain ⟨op, fd, fs, fo, fi⟩ := f
  obtain ⟨d, hs, hd, rfl⟩ := formDstImm_ok h
  dsimp only at *
  subst ho hs hd hf
  exact hc d fi

/-- A slot in the form `formDstSrc` encodes the constructor's instruction. -/
theorem inv_dstSrc {f : Fields} {c : Reg → Reg → Instr} {i : Instr} {o : BitVec 8} {off : BitVec 16}
    (ho : f.opcode = o) (hf : f.offset = off) (hc : ∀ d s, InSlot (fieldsDstSrc o off d s) (c d s))
    (h : formDstSrc f c = .ok i) : InSlot f i := by
  obtain ⟨op, fd, fs, fo, fi⟩ := f
  obtain ⟨d, s, hz, hd, hs, rfl⟩ := formDstSrc_ok h
  dsimp only at *
  subst ho hs hd hf hz
  exact hc d s

/-- A slot in the form `formDst` encodes the constructor's instruction. -/
theorem inv_dst {f : Fields} {c : Reg → Instr} {i : Instr} {o : BitVec 8} {imm : Word32} (ho : f.opcode = o)
    (hf : f.offset = 0) (hm : f.imm = imm) (hc : ∀ d, InSlot (fieldsDst o imm d) (c d)) (h : formDst f c = .ok i) :
    InSlot f i := by
  obtain ⟨op, fd, fs, fo, fi⟩ := f
  obtain ⟨d, hs, hd, rfl⟩ := formDst_ok h
  dsimp only at *
  subst ho hs hd hf hm
  exact hc d

/-- A slot in the form `formDstOffImm` encodes the constructor's instruction. -/
theorem inv_dstOffImm {f : Fields} {c : Reg → BitVec 16 → Word32 → Instr} {i : Instr} {o : BitVec 8} (ho : f.opcode = o)
    (hc : ∀ d off imm, InSlot (fieldsDstOffImm o d off imm) (c d off imm)) (h : formDstOffImm f c = .ok i) :
    InSlot f i := by
  obtain ⟨op, fd, fs, fo, fi⟩ := f
  obtain ⟨d, hs, hd, rfl⟩ := formDstOffImm_ok h
  dsimp only at *
  subst ho hs hd
  exact hc d fo fi

/-- A slot in the form `formDstSrcOffAnyImm` encodes the constructor's instruction. -/
theorem inv_dstSrcOffAnyImm {f : Fields} {c : Reg → Reg → BitVec 16 → Instr} {i : Instr} {o : BitVec 8} {imm : Word32}
    (ho : f.opcode = o) (hm : f.imm = imm) (hc : ∀ d s off, InSlot (fieldsDstSrcOff o imm d s off) (c d s off))
    (h : formDstSrcOffAnyImm f c = .ok i) : InSlot f i := by
  obtain ⟨op, fd, fs, fo, fi⟩ := f
  obtain ⟨d, s, hd, hs, rfl⟩ := formDstSrcOffAnyImm_ok h
  dsimp only at *
  subst ho hs hd hm
  exact hc d s fo

/-- A slot in the form `formDstSrcOff` encodes the constructor's instruction. -/
theorem inv_dstSrcOff {f : Fields} {c : Reg → Reg → BitVec 16 → Instr} {i : Instr} {o : BitVec 8} (ho : f.opcode = o)
    (hc : ∀ d s off, InSlot (fieldsDstSrcOff o 0 d s off) (c d s off)) (h : formDstSrcOff f c = .ok i) : InSlot f i := by
  obtain ⟨hz, h⟩ := requireZero_eq_ok.mp h
  exact inv_dstSrcOffAnyImm ho (eq_of_beq hz) hc h

/-- A slot of an atomic operation encodes the instruction that its 'imm' selects. -/
theorem inv_atomic {f : Fields} {c : AtomicForms} {i : Instr} {o : BitVec 8} (ho : f.opcode = o)
    (hc : ∀ d s off, InSlot (fieldsDstSrcOff o 0x00 d s off) (c.add d s off) ∧
      InSlot (fieldsDstSrcOff o 0x40 d s off) (c.or d s off) ∧ InSlot (fieldsDstSrcOff o 0x50 d s off) (c.and d s off) ∧
      InSlot (fieldsDstSrcOff o 0xa0 d s off) (c.xor d s off) ∧ InSlot (fieldsDstSrcOff o 0x01 d s off) (c.addFetch d s off) ∧
      InSlot (fieldsDstSrcOff o 0x41 d s off) (c.orFetch d s off) ∧
      InSlot (fieldsDstSrcOff o 0x51 d s off) (c.andFetch d s off) ∧
      InSlot (fieldsDstSrcOff o 0xa1 d s off) (c.xorFetch d s off) ∧ InSlot (fieldsDstSrcOff o 0xe1 d s off) (c.xchg d s off) ∧
      InSlot (fieldsDstSrcOff o 0xf1 d s off) (c.cmpxchg d s off))
    (h : formAtomic f c = .ok i) : InSlot f i := by
  unfold formAtomic at h
  split at h
  · exact inv_dstSrcOffAnyImm ho (eq_of_toNat ‹_›) (fun d s off => (hc d s off).1) h
  · exact inv_dstSrcOffAnyImm ho (eq_of_toNat ‹_›) (fun d s off => (hc d s off).2.1) h
  · exact inv_dstSrcOffAnyImm ho (eq_of_toNat ‹_›) (fun d s off => (hc d s off).2.2.1) h
  · exact inv_dstSrcOffAnyImm ho (eq_of_toNat ‹_›) (fun d s off => (hc d s off).2.2.2.1) h
  · exact inv_dstSrcOffAnyImm ho (eq_of_toNat ‹_›) (fun d s off => (hc d s off).2.2.2.2.1) h
  · exact inv_dstSrcOffAnyImm ho (eq_of_toNat ‹_›) (fun d s off => (hc d s off).2.2.2.2.2.1) h
  · exact inv_dstSrcOffAnyImm ho (eq_of_toNat ‹_›) (fun d s off => (hc d s off).2.2.2.2.2.2.1) h
  · exact inv_dstSrcOffAnyImm ho (eq_of_toNat ‹_›) (fun d s off => (hc d s off).2.2.2.2.2.2.2.1) h
  · exact inv_dstSrcOffAnyImm ho (eq_of_toNat ‹_›) (fun d s off => (hc d s off).2.2.2.2.2.2.2.2.1) h
  · exact inv_dstSrcOffAnyImm ho (eq_of_toNat ‹_›) (fun d s off => (hc d s off).2.2.2.2.2.2.2.2.2) h
  · cases h

/-- A selection by 'offset' between the plain and the sign-extending move. -/
theorem selectMove32_ok {f : Fields} {a b c : Decoded} {i : Instr} (h : selectMove32 f a b c = .ok i) :
    (f.offset = 0#16 ∧ a = .ok i) ∨ (f.offset = 8#16 ∧ b = .ok i) ∨ (f.offset = 16#16 ∧ c = .ok i) := by
  unfold selectMove32 at h
  split at h
  · exact .inl ⟨eq_of_toNat ‹_›, h⟩
  · exact .inr (.inl ⟨eq_of_toNat ‹_›, h⟩)
  · exact .inr (.inr ⟨eq_of_toNat ‹_›, h⟩)
  · cases h

/-- A selection by 'offset' between the plain and the sign-extending move. -/
theorem selectMove64_ok {f : Fields} {a b c d : Decoded} {i : Instr} (h : selectMove64 f a b c d = .ok i) :
    (f.offset = 0#16 ∧ a = .ok i) ∨ (f.offset = 8#16 ∧ b = .ok i) ∨ (f.offset = 16#16 ∧ c = .ok i) ∨
      (f.offset = 32#16 ∧ d = .ok i) := by
  unfold selectMove64 at h
  split at h
  · exact .inl ⟨eq_of_toNat ‹_›, h⟩
  · exact .inr (.inl ⟨eq_of_toNat ‹_›, h⟩)
  · exact .inr (.inr (.inl ⟨eq_of_toNat ‹_›, h⟩))
  · exact .inr (.inr (.inr ⟨eq_of_toNat ‹_›, h⟩))
  · cases h

/-- A selection of the width of a byte swap by 'imm'. -/
theorem selectWidth_ok {f : Fields} {a b c : Decoded} {i : Instr} (h : selectWidth f a b c = .ok i) :
    (f.imm = 16#32 ∧ a = .ok i) ∨ (f.imm = 32#32 ∧ b = .ok i) ∨ (f.imm = 64#32 ∧ c = .ok i) := by
  unfold selectWidth at h
  split at h
  · exact .inl ⟨eq_of_toNat ‹_›, h⟩
  · exact .inr (.inl ⟨eq_of_toNat ‹_›, h⟩)
  · exact .inr (.inr ⟨eq_of_toNat ‹_›, h⟩)
  · cases h

/-- A `CALL` slot. -/
theorem formCall_ok {f : Fields} {i : Instr} (ho : f.opcode = 0x85#8) (h : formCall f = .ok i) : InSlot f i := by
  obtain ⟨op, fd, fs, fo, fi⟩ := f
  obtain ⟨hz, h⟩ := requireZero_eq_ok.mp h
  simp only [Bool.and_eq_true, beq_iff_eq] at hz ho
  obtain ⟨rfl, rfl⟩ := hz
  subst ho
  split at h <;> cases h <;> rename_i hs <;> have hs := eq_of_toNat hs <;> dsimp only at hs <;> subst hs <;> exact ⟨rfl, rfl⟩

/-- A legacy `ABS` slot. -/
theorem formAbs_ok {f : Fields} {c : Word32 → Instr} {i : Instr} {o : BitVec 8} (ho : f.opcode = o)
    (hc : ∀ imm, InSlot (fieldsImm o 0 imm) (c imm)) (h : formAbs f c = .ok i) : InSlot f i := by
  obtain ⟨op, fd, fs, fo, fi⟩ := f
  obtain ⟨hz, h⟩ := requireZero_eq_ok.mp h
  simp only [Bool.and_eq_true, beq_iff_eq] at hz ho
  obtain ⟨⟨rfl, rfl⟩, rfl⟩ := hz
  subst ho
  cases h
  exact hc fi

/-- A legacy `IND` slot. -/
theorem formInd_ok {f : Fields} {c : Reg → Word32 → Instr} {i : Instr} {o : BitVec 8} (ho : f.opcode = o)
    (hc : ∀ s imm, InSlot ⟨o, 0, s.num, 0, imm⟩ (c s imm)) (h : formInd f c = .ok i) : InSlot f i := by
  obtain ⟨op, fd, fs, fo, fi⟩ := f
  obtain ⟨hz, h⟩ := requireZero_eq_ok.mp h
  obtain ⟨s, hs, h⟩ := useReg_eq_ok.mp h
  simp only [Bool.and_eq_true, beq_iff_eq] at hz ho hs
  obtain ⟨rfl, rfl⟩ := hz
  subst ho hs
  cases h
  exact hc s fi

/-- A `JA` slot of class `JMP`. -/
theorem formJa_ok {f : Fields} {i : Instr} (ho : f.opcode = 0x05#8)
    (h : requireZero (f.dst == 0 && f.src == 0 && f.imm == 0) (.ok (.jmpJa f.offset)) = .ok i) : InSlot f i := by
  obtain ⟨op, fd, fs, fo, fi⟩ := f
  obtain ⟨hz, h⟩ := requireZero_eq_ok.mp h
  simp only [Bool.and_eq_true, beq_iff_eq] at hz ho
  obtain ⟨⟨rfl, rfl⟩, rfl⟩ := hz
  subst ho
  cases h
  exact ⟨rfl, rfl⟩

/-- A `JA` slot of class `JMP32`. -/
theorem formJa32_ok {f : Fields} {i : Instr} (ho : f.opcode = 0x06#8)
    (h : requireZero (f.dst == 0 && f.src == 0 && f.offset == 0) (.ok (.jmp32Ja f.imm)) = .ok i) : InSlot f i := by
  obtain ⟨op, fd, fs, fo, fi⟩ := f
  obtain ⟨hz, h⟩ := requireZero_eq_ok.mp h
  simp only [Bool.and_eq_true, beq_iff_eq] at hz ho
  obtain ⟨⟨rfl, rfl⟩, rfl⟩ := hz
  subst ho
  cases h
  exact ⟨rfl, rfl⟩

/-- An `EXIT` slot. -/
theorem formExit_ok {f : Fields} {i : Instr} (ho : f.opcode = 0x95#8)
    (h : requireZero (f.dst == 0 && f.src == 0 && f.offset == 0 && f.imm == 0) (.ok .jmpExit) = .ok i) : InSlot f i := by
  obtain ⟨op, fd, fs, fo, fi⟩ := f
  obtain ⟨hz, h⟩ := requireZero_eq_ok.mp h
  simp only [Bool.and_eq_true, beq_iff_eq] at hz ho
  obtain ⟨⟨⟨rfl, rfl⟩, rfl⟩, rfl⟩ := hz
  subst ho
  cases h
  exact ⟨rfl, rfl⟩

/-- Two slots of a wide instruction encode the instruction that 'src_reg' selects. -/
theorem formWide_ok {f : Fields} {second : Option Fields} {i : Instr} (ho : f.opcode = 0x18#8)
    (h : formWide f second = .ok i) : i.fields = f ∧ ∃ n, i.nextImm = some n ∧ second = some (secondFields n) := by
  unfold formWide at h
  split at h
  · cases h
  · rename_i g
    obtain ⟨op, fd, fs, fo, fi⟩ := f
    obtain ⟨gop, gd, gs, go, gi⟩ := g
    split at h
    · rename_i hg
      obtain ⟨hz, h⟩ := requireZero_eq_ok.mp h
      simp only [Bool.and_eq_true, beq_iff_eq] at hg hz ho
      obtain ⟨⟨⟨rfl, rfl⟩, rfl⟩, rfl⟩ := hg
      subst hz ho
      split at h <;> rename_i hs
      case h_8 => cases h
      all_goals have hs := eq_of_toNat hs; dsimp only at hs; subst hs
      case h_1 => obtain ⟨d, rfl, h⟩ := useReg_eq_ok.mp h; cases h; exact ⟨rfl, gi, rfl, rfl⟩
      case h_3 => obtain ⟨d, rfl, h⟩ := useReg_eq_ok.mp h; cases h; exact ⟨rfl, gi, rfl, rfl⟩
      case h_7 => obtain ⟨d, rfl, h⟩ := useReg_eq_ok.mp h; cases h; exact ⟨rfl, gi, rfl, rfl⟩
      all_goals
        obtain ⟨hn, h⟩ := requireZero_eq_ok.mp h
        obtain ⟨d, rfl, h⟩ := useReg_eq_ok.mp h
        cases h
        have hn := eq_of_beq hn
        dsimp only at hn
        subst hn
        exact ⟨rfl, 0, rfl, rfl⟩
    · cases h

theorem decodeLdx_ok {f : Fields} {i : Instr} (h : decodeLdx f = .ok i) : InSlot f i := by
  unfold decodeLdx at h
  split at h
  · exact inv_dstSrcOff (eq_of_toNat ‹_›) (fun _ _ _ => ⟨rfl, rfl⟩) h
  · exact inv_dstSrcOff (eq_of_toNat ‹_›) (fun _ _ _ => ⟨rfl, rfl⟩) h
  · exact inv_dstSrcOff (eq_of_toNat ‹_›) (fun _ _ _ => ⟨rfl, rfl⟩) h
  · exact inv_dstSrcOff (eq_of_toNat ‹_›) (fun _ _ _ => ⟨rfl, rfl⟩) h
  · exact inv_dstSrcOff (eq_of_toNat ‹_›) (fun _ _ _ => ⟨rfl, rfl⟩) h
  · exact inv_dstSrcOff (eq_of_toNat ‹_›) (fun _ _ _ => ⟨rfl, rfl⟩) h
  · exact inv_dstSrcOff (eq_of_toNat ‹_›) (fun _ _ _ => ⟨rfl, rfl⟩) h
  · cases h

theorem decodeSt_ok {f : Fields} {i : Instr} (h : decodeSt f = .ok i) : InSlot f i := by
  unfold decodeSt at h
  split at h
  · exact inv_dstOffImm (eq_of_toNat ‹_›) (fun _ _ _ => ⟨rfl, rfl⟩) h
  · exact inv_dstOffImm (eq_of_toNat ‹_›) (fun _ _ _ => ⟨rfl, rfl⟩) h
  · exact inv_dstOffImm (eq_of_toNat ‹_›) (fun _ _ _ => ⟨rfl, rfl⟩) h
  · exact inv_dstOffImm (eq_of_toNat ‹_›) (fun _ _ _ => ⟨rfl, rfl⟩) h
  · cases h

theorem decodeStx_ok {f : Fields} {i : Instr} (h : decodeStx f = .ok i) : InSlot f i := by
  unfold decodeStx at h
  split at h
  · exact inv_dstSrcOff (eq_of_toNat ‹_›) (fun _ _ _ => ⟨rfl, rfl⟩) h
  · exact inv_dstSrcOff (eq_of_toNat ‹_›) (fun _ _ _ => ⟨rfl, rfl⟩) h
  · exact inv_dstSrcOff (eq_of_toNat ‹_›) (fun _ _ _ => ⟨rfl, rfl⟩) h
  · exact inv_dstSrcOff (eq_of_toNat ‹_›) (fun _ _ _ => ⟨rfl, rfl⟩) h
  · exact inv_atomic (eq_of_toNat ‹_›) (fun _ _ _ => ⟨⟨rfl, rfl⟩, ⟨rfl, rfl⟩, ⟨rfl, rfl⟩, ⟨rfl, rfl⟩, ⟨rfl, rfl⟩, ⟨rfl, rfl⟩, ⟨rfl, rfl⟩, ⟨rfl, rfl⟩, ⟨rfl, rfl⟩, ⟨rfl, rfl⟩⟩) h
  · exact inv_atomic (eq_of_toNat ‹_›) (fun _ _ _ => ⟨⟨rfl, rfl⟩, ⟨rfl, rfl⟩, ⟨rfl, rfl⟩, ⟨rfl, rfl⟩, ⟨rfl, rfl⟩, ⟨rfl, rfl⟩, ⟨rfl, rfl⟩, ⟨rfl, rfl⟩, ⟨rfl, rfl⟩, ⟨rfl, rfl⟩⟩) h
  · cases h

theorem decodeAlu_ok {f : Fields} {i : Instr} (h : decodeAlu f = .ok i) : InSlot f i := by
  unfold decodeAlu at h
  split at h
  · obtain ⟨h0, h⟩ := noOffset_ok h
    exact inv_dstImm (eq_of_toNat ‹_›) h0 (fun _ _ => ⟨rfl, rfl⟩) h
  · obtain ⟨h0, h⟩ := noOffset_ok h
    exact inv_dstSrc (eq_of_toNat ‹_›) h0 (fun _ _ => ⟨rfl, rfl⟩) h
  · obtain ⟨h0, h⟩ := noOffset_ok h
    exact inv_dstImm (eq_of_toNat ‹_›) h0 (fun _ _ => ⟨rfl, rfl⟩) h
  · obtain ⟨h0, h⟩ := noOffset_ok h
    exact inv_dstSrc (eq_of_toNat ‹_›) h0 (fun _ _ => ⟨rfl, rfl⟩) h
  · obtain ⟨h0, h⟩ := noOffset_ok h
    exact inv_dstImm (eq_of_toNat ‹_›) h0 (fun _ _ => ⟨rfl, rfl⟩) h
  · obtain ⟨h0, h⟩ := noOffset_ok h
    exact inv_dstSrc (eq_of_toNat ‹_›) h0 (fun _ _ => ⟨rfl, rfl⟩) h
  · obtain ⟨h0, h⟩ | ⟨h0, h⟩ := selectSigned_ok h
    · exact inv_dstImm (eq_of_toNat ‹_›) h0 (fun _ _ => ⟨rfl, rfl⟩) h
    · exact inv_dstImm (eq_of_toNat ‹_›) h0 (fun _ _ => ⟨rfl, rfl⟩) h
  · obtain ⟨h0, h⟩ | ⟨h0, h⟩ := selectSigned_ok h
    · exact inv_dstSrc (eq_of_toNat ‹_›) h0 (fun _ _ => ⟨rfl, rfl⟩) h
    · exact inv_dstSrc (eq_of_toNat ‹_›) h0 (fun _ _ => ⟨rfl, rfl⟩) h
  · obtain ⟨h0, h⟩ := noOffset_ok h
    exact inv_dstImm (eq_of_toNat ‹_›) h0 (fun _ _ => ⟨rfl, rfl⟩) h
  · obtain ⟨h0, h⟩ := noOffset_ok h
    exact inv_dstSrc (eq_of_toNat ‹_›) h0 (fun _ _ => ⟨rfl, rfl⟩) h
  · obtain ⟨h0, h⟩ := noOffset_ok h
    exact inv_dstImm (eq_of_toNat ‹_›) h0 (fun _ _ => ⟨rfl, rfl⟩) h
  · obtain ⟨h0, h⟩ := noOffset_ok h
    exact inv_dstSrc (eq_of_toNat ‹_›) h0 (fun _ _ => ⟨rfl, rfl⟩) h
  · obtain ⟨h0, h⟩ := noOffset_ok h
    exact inv_dstImm (eq_of_toNat ‹_›) h0 (fun _ _ => ⟨rfl, rfl⟩) h
  · obtain ⟨h0, h⟩ := noOffset_ok h
    exact inv_dstSrc (eq_of_toNat ‹_›) h0 (fun _ _ => ⟨rfl, rfl⟩) h
  · obtain ⟨h0, h⟩ := noOffset_ok h
    exact inv_dstImm (eq_of_toNat ‹_›) h0 (fun _ _ => ⟨rfl, rfl⟩) h
  · obtain ⟨h0, h⟩ := noOffset_ok h
    exact inv_dstSrc (eq_of_toNat ‹_›) h0 (fun _ _ => ⟨rfl, rfl⟩) h
  · obtain ⟨h0, h⟩ := noOffset_ok h
    obtain ⟨hz, h⟩ := requireZero_eq_ok.mp h
    exact inv_dst (eq_of_toNat ‹_›) h0 (eq_of_beq hz) (fun _ => ⟨rfl, rfl⟩) h
  · obtain ⟨h0, h⟩ | ⟨h0, h⟩ := selectSigned_ok h
    · exact inv_dstImm (eq_of_toNat ‹_›) h0 (fun _ _ => ⟨rfl, rfl⟩) h
    · exact inv_dstImm (eq_of_toNat ‹_›) h0 (fun _ _ => ⟨rfl, rfl⟩) h
  · obtain ⟨h0, h⟩ | ⟨h0, h⟩ := selectSigned_ok h
    · exact inv_dstSrc (eq_of_toNat ‹_›) h0 (fun _ _ => ⟨rfl, rfl⟩) h
    · exact inv_dstSrc (eq_of_toNat ‹_›) h0 (fun _ _ => ⟨rfl, rfl⟩) h
  · obtain ⟨h0, h⟩ := noOffset_ok h
    exact inv_dstImm (eq_of_toNat ‹_›) h0 (fun _ _ => ⟨rfl, rfl⟩) h
  · obtain ⟨h0, h⟩ := noOffset_ok h
    exact inv_dstSrc (eq_of_toNat ‹_›) h0 (fun _ _ => ⟨rfl, rfl⟩) h
  · obtain ⟨h0, h⟩ := noOffset_ok h
    exact inv_dstImm (eq_of_toNat ‹_›) h0 (fun _ _ => ⟨rfl, rfl⟩) h
  · obtain ⟨h0, h⟩ | ⟨h0, h⟩ | ⟨h0, h⟩ := selectMove32_ok h
    · exact inv_dstSrc (eq_of_toNat ‹_›) h0 (fun _ _ => ⟨rfl, rfl⟩) h
    · exact inv_dstSrc (eq_of_toNat ‹_›) h0 (fun _ _ => ⟨rfl, rfl⟩) h
    · exact inv_dstSrc (eq_of_toNat ‹_›) h0 (fun _ _ => ⟨rfl, rfl⟩) h
  · obtain ⟨h0, h⟩ := noOffset_ok h
    exact inv_dstImm (eq_of_toNat ‹_›) h0 (fun _ _ => ⟨rfl, rfl⟩) h
  · obtain ⟨h0, h⟩ := noOffset_ok h
    exact inv_dstSrc (eq_of_toNat ‹_›) h0 (fun _ _ => ⟨rfl, rfl⟩) h
  · obtain ⟨h0, h⟩ := noOffset_ok h
    obtain ⟨hm, h⟩ | ⟨hm, h⟩ | ⟨hm, h⟩ := selectWidth_ok h
    · exact inv_dst (eq_of_toNat ‹_›) h0 hm (fun _ => ⟨rfl, rfl⟩) h
    · exact inv_dst (eq_of_toNat ‹_›) h0 hm (fun _ => ⟨rfl, rfl⟩) h
    · exact inv_dst (eq_of_toNat ‹_›) h0 hm (fun _ => ⟨rfl, rfl⟩) h
  · obtain ⟨h0, h⟩ := noOffset_ok h
    obtain ⟨hm, h⟩ | ⟨hm, h⟩ | ⟨hm, h⟩ := selectWidth_ok h
    · exact inv_dst (eq_of_toNat ‹_›) h0 hm (fun _ => ⟨rfl, rfl⟩) h
    · exact inv_dst (eq_of_toNat ‹_›) h0 hm (fun _ => ⟨rfl, rfl⟩) h
    · exact inv_dst (eq_of_toNat ‹_›) h0 hm (fun _ => ⟨rfl, rfl⟩) h
  · cases h

theorem decodeJmp_ok {f : Fields} {i : Instr} (h : decodeJmp f = .ok i) : InSlot f i := by
  unfold decodeJmp at h
  split at h
  · exact formJa_ok (eq_of_toNat ‹_›) h
  · exact inv_dstOffImm (eq_of_toNat ‹_›) (fun _ _ _ => ⟨rfl, rfl⟩) h
  · exact inv_dstSrcOff (eq_of_toNat ‹_›) (fun _ _ _ => ⟨rfl, rfl⟩) h
  · exact inv_dstOffImm (eq_of_toNat ‹_›) (fun _ _ _ => ⟨rfl, rfl⟩) h
  · exact inv_dstSrcOff (eq_of_toNat ‹_›) (fun _ _ _ => ⟨rfl, rfl⟩) h
  · exact inv_dstOffImm (eq_of_toNat ‹_›) (fun _ _ _ => ⟨rfl, rfl⟩) h
  · exact inv_dstSrcOff (eq_of_toNat ‹_›) (fun _ _ _ => ⟨rfl, rfl⟩) h
  · exact inv_dstOffImm (eq_of_toNat ‹_›) (fun _ _ _ => ⟨rfl, rfl⟩) h
  · exact inv_dstSrcOff (eq_of_toNat ‹_›) (fun _ _ _ => ⟨rfl, rfl⟩) h
  · exact inv_dstOffImm (eq_of_toNat ‹_›) (fun _ _ _ => ⟨rfl, rfl⟩) h
  · exact inv_dstSrcOff (eq_of_toNat ‹_›) (fun _ _ _ => ⟨rfl, rfl⟩) h
  · exact inv_dstOffImm (eq_of_toNat ‹_›) (fun _ _ _ => ⟨rfl, rfl⟩) h
  · exact inv_dstSrcOff (eq_of_toNat ‹_›) (fun _ _ _ => ⟨rfl, rfl⟩) h
  · exact inv_dstOffImm (eq_of_toNat ‹_›) (fun _ _ _ => ⟨rfl, rfl⟩) h
  · exact inv_dstSrcOff (eq_of_toNat ‹_›) (fun _ _ _ => ⟨rfl, rfl⟩) h
  · exact formCall_ok (eq_of_toNat ‹_›) h
  · exact formExit_ok (eq_of_toNat ‹_›) h
  · exact inv_dstOffImm (eq_of_toNat ‹_›) (fun _ _ _ => ⟨rfl, rfl⟩) h
  · exact inv_dstSrcOff (eq_of_toNat ‹_›) (fun _ _ _ => ⟨rfl, rfl⟩) h
  · exact inv_dstOffImm (eq_of_toNat ‹_›) (fun _ _ _ => ⟨rfl, rfl⟩) h
  · exact inv_dstSrcOff (eq_of_toNat ‹_›) (fun _ _ _ => ⟨rfl, rfl⟩) h
  · exact inv_dstOffImm (eq_of_toNat ‹_›) (fun _ _ _ => ⟨rfl, rfl⟩) h
  · exact inv_dstSrcOff (eq_of_toNat ‹_›) (fun _ _ _ => ⟨rfl, rfl⟩) h
  · exact inv_dstOffImm (eq_of_toNat ‹_›) (fun _ _ _ => ⟨rfl, rfl⟩) h
  · exact inv_dstSrcOff (eq_of_toNat ‹_›) (fun _ _ _ => ⟨rfl, rfl⟩) h
  · cases h

theorem decodeJmp32_ok {f : Fields} {i : Instr} (h : decodeJmp32 f = .ok i) : InSlot f i := by
  unfold decodeJmp32 at h
  split at h
  · exact formJa32_ok (eq_of_toNat ‹_›) h
  · exact inv_dstOffImm (eq_of_toNat ‹_›) (fun _ _ _ => ⟨rfl, rfl⟩) h
  · exact inv_dstSrcOff (eq_of_toNat ‹_›) (fun _ _ _ => ⟨rfl, rfl⟩) h
  · exact inv_dstOffImm (eq_of_toNat ‹_›) (fun _ _ _ => ⟨rfl, rfl⟩) h
  · exact inv_dstSrcOff (eq_of_toNat ‹_›) (fun _ _ _ => ⟨rfl, rfl⟩) h
  · exact inv_dstOffImm (eq_of_toNat ‹_›) (fun _ _ _ => ⟨rfl, rfl⟩) h
  · exact inv_dstSrcOff (eq_of_toNat ‹_›) (fun _ _ _ => ⟨rfl, rfl⟩) h
  · exact inv_dstOffImm (eq_of_toNat ‹_›) (fun _ _ _ => ⟨rfl, rfl⟩) h
  · exact inv_dstSrcOff (eq_of_toNat ‹_›) (fun _ _ _ => ⟨rfl, rfl⟩) h
  · exact inv_dstOffImm (eq_of_toNat ‹_›) (fun _ _ _ => ⟨rfl, rfl⟩) h
  · exact inv_dstSrcOff (eq_of_toNat ‹_›) (fun _ _ _ => ⟨rfl, rfl⟩) h
  · exact inv_dstOffImm (eq_of_toNat ‹_›) (fun _ _ _ => ⟨rfl, rfl⟩) h
  · exact inv_dstSrcOff (eq_of_toNat ‹_›) (fun _ _ _ => ⟨rfl, rfl⟩) h
  · exact inv_dstOffImm (eq_of_toNat ‹_›) (fun _ _ _ => ⟨rfl, rfl⟩) h
  · exact inv_dstSrcOff (eq_of_toNat ‹_›) (fun _ _ _ => ⟨rfl, rfl⟩) h
  · exact inv_dstOffImm (eq_of_toNat ‹_›) (fun _ _ _ => ⟨rfl, rfl⟩) h
  · exact inv_dstSrcOff (eq_of_toNat ‹_›) (fun _ _ _ => ⟨rfl, rfl⟩) h
  · exact inv_dstOffImm (eq_of_toNat ‹_›) (fun _ _ _ => ⟨rfl, rfl⟩) h
  · exact inv_dstSrcOff (eq_of_toNat ‹_›) (fun _ _ _ => ⟨rfl, rfl⟩) h
  · exact inv_dstOffImm (eq_of_toNat ‹_›) (fun _ _ _ => ⟨rfl, rfl⟩) h
  · exact inv_dstSrcOff (eq_of_toNat ‹_›) (fun _ _ _ => ⟨rfl, rfl⟩) h
  · exact inv_dstOffImm (eq_of_toNat ‹_›) (fun _ _ _ => ⟨rfl, rfl⟩) h
  · exact inv_dstSrcOff (eq_of_toNat ‹_›) (fun _ _ _ => ⟨rfl, rfl⟩) h
  · cases h

theorem decodeAlu64_ok {f : Fields} {i : Instr} (h : decodeAlu64 f = .ok i) : InSlot f i := by
  unfold decodeAlu64 at h
  split at h
  · obtain ⟨h0, h⟩ := noOffset_ok h
    exact inv_dstImm (eq_of_toNat ‹_›) h0 (fun _ _ => ⟨rfl, rfl⟩) h
  · obtain ⟨h0, h⟩ := noOffset_ok h
    exact inv_dstSrc (eq_of_toNat ‹_›) h0 (fun _ _ => ⟨rfl, rfl⟩) h
  · obtain ⟨h0, h⟩ := noOffset_ok h
    exact inv_dstImm (eq_of_toNat ‹_›) h0 (fun _ _ => ⟨rfl, rfl⟩) h
  · obtain ⟨h0, h⟩ := noOffset_ok h
    exact inv_dstSrc (eq_of_toNat ‹_›) h0 (fun _ _ => ⟨rfl, rfl⟩) h
  · obtain ⟨h0, h⟩ := noOffset_ok h
    exact inv_dstImm (eq_of_toNat ‹_›) h0 (fun _ _ => ⟨rfl, rfl⟩) h
  · obtain ⟨h0, h⟩ := noOffset_ok h
    exact inv_dstSrc (eq_of_toNat ‹_›) h0 (fun _ _ => ⟨rfl, rfl⟩) h
  · obtain ⟨h0, h⟩ | ⟨h0, h⟩ := selectSigned_ok h
    · exact inv_dstImm (eq_of_toNat ‹_›) h0 (fun _ _ => ⟨rfl, rfl⟩) h
    · exact inv_dstImm (eq_of_toNat ‹_›) h0 (fun _ _ => ⟨rfl, rfl⟩) h
  · obtain ⟨h0, h⟩ | ⟨h0, h⟩ := selectSigned_ok h
    · exact inv_dstSrc (eq_of_toNat ‹_›) h0 (fun _ _ => ⟨rfl, rfl⟩) h
    · exact inv_dstSrc (eq_of_toNat ‹_›) h0 (fun _ _ => ⟨rfl, rfl⟩) h
  · obtain ⟨h0, h⟩ := noOffset_ok h
    exact inv_dstImm (eq_of_toNat ‹_›) h0 (fun _ _ => ⟨rfl, rfl⟩) h
  · obtain ⟨h0, h⟩ := noOffset_ok h
    exact inv_dstSrc (eq_of_toNat ‹_›) h0 (fun _ _ => ⟨rfl, rfl⟩) h
  · obtain ⟨h0, h⟩ := noOffset_ok h
    exact inv_dstImm (eq_of_toNat ‹_›) h0 (fun _ _ => ⟨rfl, rfl⟩) h
  · obtain ⟨h0, h⟩ := noOffset_ok h
    exact inv_dstSrc (eq_of_toNat ‹_›) h0 (fun _ _ => ⟨rfl, rfl⟩) h
  · obtain ⟨h0, h⟩ := noOffset_ok h
    exact inv_dstImm (eq_of_toNat ‹_›) h0 (fun _ _ => ⟨rfl, rfl⟩) h
  · obtain ⟨h0, h⟩ := noOffset_ok h
    exact inv_dstSrc (eq_of_toNat ‹_›) h0 (fun _ _ => ⟨rfl, rfl⟩) h
  · obtain ⟨h0, h⟩ := noOffset_ok h
    exact inv_dstImm (eq_of_toNat ‹_›) h0 (fun _ _ => ⟨rfl, rfl⟩) h
  · obtain ⟨h0, h⟩ := noOffset_ok h
    exact inv_dstSrc (eq_of_toNat ‹_›) h0 (fun _ _ => ⟨rfl, rfl⟩) h
  · obtain ⟨h0, h⟩ := noOffset_ok h
    obtain ⟨hz, h⟩ := requireZero_eq_ok.mp h
    exact inv_dst (eq_of_toNat ‹_›) h0 (eq_of_beq hz) (fun _ => ⟨rfl, rfl⟩) h
  · obtain ⟨h0, h⟩ | ⟨h0, h⟩ := selectSigned_ok h
    · exact inv_dstImm (eq_of_toNat ‹_›) h0 (fun _ _ => ⟨rfl, rfl⟩) h
    · exact inv_dstImm (eq_of_toNat ‹_›) h0 (fun _ _ => ⟨rfl, rfl⟩) h
  · obtain ⟨h0, h⟩ | ⟨h0, h⟩ := selectSigned_ok h
    · exact inv_dstSrc (eq_of_toNat ‹_›) h0 (fun _ _ => ⟨rfl, rfl⟩) h
    · exact inv_dstSrc (eq_of_toNat ‹_›) h0 (fun _ _ => ⟨rfl, rfl⟩) h
  · obtain ⟨h0, h⟩ := noOffset_ok h
    exact inv_dstImm (eq_of_toNat ‹_›) h0 (fun _ _ => ⟨rfl, rfl⟩) h
  · obtain ⟨h0, h⟩ := noOffset_ok h
    exact inv_dstSrc (eq_of_toNat ‹_›) h0 (fun _ _ => ⟨rfl, rfl⟩) h
  · obtain ⟨h0, h⟩ := noOffset_ok h
    exact inv_dstImm (eq_of_toNat ‹_›) h0 (fun _ _ => ⟨rfl, rfl⟩) h
  · obtain ⟨h0, h⟩ | ⟨h0, h⟩ | ⟨h0, h⟩ | ⟨h0, h⟩ := selectMove64_ok h
    · exact inv_dstSrc (eq_of_toNat ‹_›) h0 (fun _ _ => ⟨rfl, rfl⟩) h
    · exact inv_dstSrc (eq_of_toNat ‹_›) h0 (fun _ _ => ⟨rfl, rfl⟩) h
    · exact inv_dstSrc (eq_of_toNat ‹_›) h0 (fun _ _ => ⟨rfl, rfl⟩) h
    · exact inv_dstSrc (eq_of_toNat ‹_›) h0 (fun _ _ => ⟨rfl, rfl⟩) h
  · obtain ⟨h0, h⟩ := noOffset_ok h
    exact inv_dstImm (eq_of_toNat ‹_›) h0 (fun _ _ => ⟨rfl, rfl⟩) h
  · obtain ⟨h0, h⟩ := noOffset_ok h
    exact inv_dstSrc (eq_of_toNat ‹_›) h0 (fun _ _ => ⟨rfl, rfl⟩) h
  · obtain ⟨h0, h⟩ := noOffset_ok h
    obtain ⟨hm, h⟩ | ⟨hm, h⟩ | ⟨hm, h⟩ := selectWidth_ok h
    · exact inv_dst (eq_of_toNat ‹_›) h0 hm (fun _ => ⟨rfl, rfl⟩) h
    · exact inv_dst (eq_of_toNat ‹_›) h0 hm (fun _ => ⟨rfl, rfl⟩) h
    · exact inv_dst (eq_of_toNat ‹_›) h0 hm (fun _ => ⟨rfl, rfl⟩) h
  · cases h

theorem decodeLd_ok {f : Fields} {second : Option Fields} {i : Instr} (h : decodeLd f second = .ok i) :
    InSlot f i ∨ (f.opcode = 0x18#8 ∧ i.fields = f ∧ ∃ n, i.nextImm = some n ∧ second = some (secondFields n)) := by
  unfold decodeLd at h
  split at h
  · exact .inr ⟨eq_of_toNat ‹_›, formWide_ok (eq_of_toNat ‹_›) h⟩
  · exact .inl (formAbs_ok (eq_of_toNat ‹_›) (fun _ => ⟨rfl, rfl⟩) h)
  · exact .inl (formAbs_ok (eq_of_toNat ‹_›) (fun _ => ⟨rfl, rfl⟩) h)
  · exact .inl (formAbs_ok (eq_of_toNat ‹_›) (fun _ => ⟨rfl, rfl⟩) h)
  · exact .inl (formInd_ok (eq_of_toNat ‹_›) (fun _ _ => ⟨rfl, rfl⟩) h)
  · exact .inl (formInd_ok (eq_of_toNat ‹_›) (fun _ _ => ⟨rfl, rfl⟩) h)
  · exact .inl (formInd_ok (eq_of_toNat ‹_›) (fun _ _ => ⟨rfl, rfl⟩) h)
  · cases h

/-- What decodes is the encoding of the instruction it decodes to. -/
theorem decodeFields_ok {f : Fields} {second : Option Fields} {i : Instr} (h : decodeFields f second = .ok i) :
    i.fields = f ∧ ∀ n, i.nextImm = some n → second = some (secondFields n) := by
  have close (hs : InSlot f i) : i.fields = f ∧ ∀ n, i.nextImm = some n → second = some (secondFields n) :=
    ⟨hs.1, fun n hn => by rw [hs.2] at hn; cases hn⟩
  unfold decodeFields at h
  split at h
  · obtain hs | ⟨-, hf, n, hn, h2⟩ := decodeLd_ok h
    · exact close hs
    · refine ⟨hf, fun m hm => ?_⟩
      rw [hn] at hm
      cases hm
      exact h2
  · exact close (decodeLdx_ok h)
  · exact close (decodeSt_ok h)
  · exact close (decodeStx_ok h)
  · exact close (decodeAlu_ok h)
  · exact close (decodeJmp_ok h)
  · exact close (decodeJmp32_ok h)
  · exact close (decodeAlu64_ok h)

end Sys2Proof
end

