-- ==== Sys2Proof/Laws/Fetch.lean ====
section
/-!
SUPPORT. Laws/Fetch.lean: which slots are second slots, one after the other, and what a successful decoding at the
program counter says (rules R112, R113).
-/

namespace Sys2Proof

/-- The byte at the lowest address of a slot is 'opcode', on either host. -/
@[simp] theorem slotByte_toSlot (e : Endian) (f : Fields) : slotByte (f.toSlot e) 0 = f.opcode := by
  cases e <;> exact (slotByte_slotOfBytes _ _ _ _ _ _ _ _).1

/-- An instruction has two slots exactly when its 'opcode' is 0x18, and exactly then it has a 'next_imm'. -/
theorem Instr.length_cases (i : Instr) :
    (i.length = 1 ∧ (i.fields.opcode == 0x18#8) = false ∧ i.nextImm = none) ∨
      (i.length = 2 ∧ (i.fields.opcode == 0x18#8) = true ∧ ∃ n, i.nextImm = some n) := by
  cases i <;> first | exact .inl ⟨rfl, rfl, rfl⟩ | exact .inr ⟨rfl, rfl, _, rfl⟩
end Sys2Proof

namespace Sys2Proof.Machine

/-- Whether a slot is a second slot, from the slot before it. -/
theorem secondAfter_succ (program : List Slot) (n : Nat) (b : Bool) :
    secondAfter program (n + 1) b = match program[n]? with
      | some s => isWideOpcode s && !secondAfter program n b
      | none => false := by
  induction program generalizing n b with
  | nil => cases n <;> rfl
  | cons s rest ih =>
    cases n with
    | zero => cases rest <;> rfl
    | succ n => simpa [secondAfter] using ih n (isWideOpcode s && !b)

/-- A slot is a second slot exactly when the one before it is there, has 'opcode' 0x18 and is none itself (rule R112). -/
theorem isSecondSlot_succ (program : List Slot) (n : Nat) :
    isSecondSlot program (n + 1) = match program[n]? with
      | some s => isWideOpcode s && !isSecondSlot program n
      | none => false :=
  secondAfter_succ program n false

/-- What a successful decoding says: the slot is in the program and no second slot, the slots there are the encoding of
the instruction, its group is supported, and it does not write a read-only R10 (rules R113, R131, R35). -/
structure DecodedAt (s : State) (n : Nat) (i : Instr) : Prop where
  first : s.program[n]? = some (i.fields.toSlot s.params.hostEndian)
  notSecond : isSecondSlot s.program n = false
  next : ∀ v, i.nextImm = some v → s.program[n + 1]? = some ((secondFields v).toSlot s.params.hostEndian)
  supported : s.params.supports i.group = true
  keepsR10 : s.params.r10ReadOnly = true → i.writtenReg ≠ some .r10

/-- What decodes at a slot is there. -/
theorem decodeAt_eq_ok {s : State} {n : Nat} {i : Instr} (h : decodeAt s n = .ok i) : DecodedAt s n i := by
  unfold decodeAt at h
  split at h
  · cases h
  · rename_i first hf
    split at h
    · cases h
    · rename_i h2
      split at h
      · cases h
      · rename_i hd
        cases h
        unfold decode at hd
        split at hd
        · cases hd
        · rename_i hi
          obtain ⟨hfi, hn⟩ := decodeFields_ok hi
          unfold platformCheck at hd
          split at hd <;> [skip; cases hd]
          split at hd <;> [cases hd; skip]
          cases hd
          rename_i hs hr
          refine ⟨?_, by simpa using h2, fun v hv => ?_, hs, ?_⟩
          · rw [hfi, Fields.toSlot_ofSlot, hf]
          · have h3 := hn v hv
            cases hp : s.program[n + 1]? with
            | none => simp [hp] at h3
            | some g =>
              simp only [hp, Option.map_some, Option.some.injEq] at h3
              rw [← h3, Fields.toSlot_ofSlot]
          · intro h10 hw
            simp [h10, hw] at hr

/-- The slot after an instruction is no second slot (rules R39, R112). -/
theorem DecodedAt.not_second_after {s : State} {n : Nat} {i : Instr} (h : DecodedAt s n i) :
    isSecondSlot s.program (n + i.length) = false := by
  obtain ⟨hl, ho, -⟩ | ⟨hl, ho, v, hv⟩ := i.length_cases
  · rw [hl, isSecondSlot_succ, h.first]
    simp only [isWideOpcode, slotByte_toSlot, ho, Bool.false_and]
  · rw [hl, isSecondSlot_succ, h.next v hv, isSecondSlot_succ, h.first]
    simp only [isWideOpcode, slotByte_toSlot, ho, h.notSecond]
    rfl
end Sys2Proof.Machine
end

