-- ==== Sys2Proof/Laws/Memory.lean ====
section
/-!
SUPPORT. Laws/Memory.lean: what every memory operation does to the byte at an address, that each keeps the canonical
form, and that a value laid out and assembled again is its low bytes.
-/

namespace Sys2Proof.Machine

/-- A byte read after a byte has been written: the written one at its address, the old one elsewhere. -/
@[simp] theorem Memory.read_write (m : Memory) (x y : Nat) (v : Byte) :
    Memory.read (Memory.write m x v) y = if y = x then some v else Memory.read m y := by
  induction m with
  | nil => simp [Memory.write, Memory.read, eq_comm]
  | cons c rest ih =>
    obtain ⟨a, b⟩ := c
    simp only [Memory.write]
    split
    · simp [Memory.read, eq_comm]
    · split
      · subst_vars
        by_cases h : y = a <;> simp [Memory.read, h, eq_comm]
      · simp only [Memory.read, ih]
        by_cases h : y = x
        · subst h
          simp_all [eq_comm]
        · simp [h]

/-- A filter that depends on the address only. -/
theorem Memory.read_filter (m : Memory) (keep : Nat → Bool) (y : Nat) :
    Memory.read (m.filter fun c => keep c.1) y = if keep y then Memory.read m y else none := by
  induction m with
  | nil => simp [Memory.read]
  | cons c rest ih =>
    obtain ⟨a, b⟩ := c
    by_cases hk : keep a = true
    · simp only [List.filter_cons, hk, if_true, Memory.read, ih]
      by_cases h : a = y
      · subst h
        simp [hk]
      · simp [h]
    · have hk' : keep a = false := by simpa using hk
      have hf : (((a, b) :: rest).filter fun c => keep c.1) = rest.filter fun c => keep c.1 := by simp [hk']
      rw [hf, ih]
      by_cases h : a = y
      · subst h
        simp [hk']
      · simp [Memory.read, h]

/-- A byte read after one has been cleared. -/
@[simp] theorem Memory.read_clear (m : Memory) (x y : Nat) :
    Memory.read (Memory.clear m x) y = if y = x then none else Memory.read m y := by
  have h := Memory.read_filter m (fun a => decide (a ≠ x)) y
  simp only [Memory.clear]
  rw [h]
  by_cases hy : y = x <;> simp [hy]

/-- A byte read after a range has been cleared. -/
@[simp] theorem Memory.read_clearRange (m : Memory) (lo hi y : Nat) :
    Memory.read (Memory.clearRange m lo hi) y = if lo ≤ y ∧ y < hi then none else Memory.read m y := by
  have h := Memory.read_filter m (fun a => decide (a < lo ∨ hi ≤ a)) y
  simp only [Memory.clearRange]
  rw [h]
  by_cases hy : lo ≤ y ∧ y < hi
  · have : ¬(y < lo ∨ hi ≤ y) := by omega
    simp [hy, this]
  · have : y < lo ∨ hi ≤ y := by omega
    simp [hy, this]

/-- A byte read after several have been written from an address on. -/
theorem Memory.read_writeBytes (m : Memory) (x y : Nat) (bs : List Byte) :
    Memory.read (Memory.writeBytes m x bs) y =
      if x ≤ y ∧ y < x + bs.length then bs[y - x]? else Memory.read m y := by
  induction bs generalizing m x with
  | nil =>
    simp [Memory.writeBytes]
  | cons b rest ih =>
    simp only [Memory.writeBytes, ih, Memory.read_write, List.length_cons]
    by_cases h1 : x + 1 ≤ y ∧ y < x + 1 + rest.length
    · have h2 : x ≤ y ∧ y < x + (rest.length + 1) := by omega
      have h3 : y - x = (y - (x + 1)) + 1 := by omega
      simp only [h1, h2, and_self, if_true, h3, List.getElem?_cons_succ]
    · by_cases h4 : y = x
      · subst h4
        simp
      · have h2 : ¬(x ≤ y ∧ y < x + (rest.length + 1)) := by omega
        rw [if_neg h1, if_neg h2, if_neg h4]

/-- A byte outside those written reads as before. -/
theorem Memory.read_writeBytes_outside (m : Memory) (x y : Nat) (bs : List Byte) (h : y < x ∨ x + bs.length ≤ y) :
    Memory.read (Memory.writeBytes m x bs) y = Memory.read m y := by
  rw [Memory.read_writeBytes]
  have : ¬(x ≤ y ∧ y < x + bs.length) := by omega
  simp [this]

/-- Reading several bytes answers exactly when every one of them holds a value. -/
theorem Memory.readBytes_eq_some (m : Memory) (x n : Nat) (bs : List Byte) :
    Memory.readBytes m x n = some bs ↔ bs.length = n ∧ ∀ k, k < n → Memory.read m (x + k) = bs[k]? := by
  induction n generalizing x bs with
  | zero =>
    simp only [Memory.readBytes, Option.some.injEq]
    constructor
    · rintro rfl
      simp
    · rintro ⟨h, -⟩
      exact (List.length_eq_zero_iff.mp h).symm
  | succ n ih =>
    simp only [Memory.readBytes]
    cases hb : Memory.read m x with
    | none =>
      simp only [reduceCtorEq, false_iff, not_and]
      intro hl h
      have := h 0 (by omega)
      rw [Nat.add_zero, hb] at this
      have hlt : 0 < bs.length := by omega
      rw [List.getElem?_eq_getElem hlt] at this
      exact absurd this (by simp)
    | some b =>
      cases hr : Memory.readBytes m (x + 1) n with
      | none =>
        simp only [reduceCtorEq, false_iff, not_and]
        intro hl h
        cases bs with
        | nil => simp at hl
        | cons c rest =>
          have hrest : Memory.readBytes m (x + 1) n = some rest := by
            rw [ih]
            refine ⟨by simpa using hl, fun k hk => ?_⟩
            have := h (k + 1) (by omega)
            rw [List.getElem?_cons_succ] at this
            rw [← this]
            congr 1
            omega
          rw [hr] at hrest
          exact absurd hrest (by simp)
      | some rs =>
        have hrs := (ih (x + 1) rs).mp hr
        simp only [Option.some.injEq]
        constructor
        · rintro rfl
          refine ⟨by simp [hrs.1], fun k hk => ?_⟩
          cases k with
          | zero => simpa using hb
          | succ k =>
            rw [List.getElem?_cons_succ, ← hrs.2 k (by omega)]
            congr 1
            omega
        · rintro ⟨hl, h⟩
          cases bs with
          | nil => simp at hl
          | cons c rest =>
            have h0 := h 0 (by omega)
            rw [Nat.add_zero, hb] at h0
            have hrest : Memory.readBytes m (x + 1) n = some rest := by
              rw [ih]
              refine ⟨by simpa using hl, fun k hk => ?_⟩
              have := h (k + 1) (by omega)
              rw [List.getElem?_cons_succ] at this
              rw [← this]
              congr 1
              omega
            rw [hr] at hrest
            simp_all

/-! ### The canonical form -/

theorem Memory.wf_nil : Memory.wf [] := by
  simp [Memory.wf]

theorem Memory.mem_write_address (m : Memory) (x : Nat) (v : Byte) (c : Host.Cell) (h : c ∈ Memory.write m x v) :
    c = (x, v) ∨ c ∈ m := by
  induction m with
  | nil => simpa [Memory.write] using h
  | cons d rest ih =>
    simp only [Memory.write] at h
    split at h
    · simpa using h
    · split at h
      · rcases List.mem_cons.mp h with h | h
        · exact .inl h
        · exact .inr (List.mem_cons_of_mem _ h)
      · rcases List.mem_cons.mp h with h | h
        · exact .inr (h ▸ List.mem_cons_self)
        · rcases ih h with h | h
          · exact .inl h
          · exact .inr (List.mem_cons_of_mem _ h)

/-- Writing a byte at a 64-bit address keeps the canonical form. -/
theorem Memory.wf_write (m : Memory) (x : Nat) (v : Byte) (h : Memory.wf m) (hx : x < 2 ^ 64) :
    Memory.wf (Memory.write m x v) := by
  refine ⟨?_, fun c hc => ?_⟩
  · obtain ⟨hp, -⟩ := h
    induction m with
    | nil => simp [Memory.write]
    | cons d rest ih =>
      obtain ⟨a, b⟩ := d
      obtain ⟨h1, h2⟩ := List.pairwise_cons.mp hp
      simp only [Memory.write]
      split
      · rename_i hlt
        refine List.pairwise_cons.mpr ⟨fun c hc => ?_, hp⟩
        rcases List.mem_cons.mp hc with rfl | hc
        · exact hlt
        · exact Nat.lt_trans hlt (h1 c hc)
      · split
        · rename_i hlt heq
          subst heq
          exact List.pairwise_cons.mpr ⟨h1, h2⟩
        · rename_i hlt hne
          refine List.pairwise_cons.mpr ⟨fun c hc => ?_, ih h2⟩
          rcases Memory.mem_write_address rest x v c hc with rfl | hc
          · simp only at *
            omega
          · exact h1 c hc
  · rcases Memory.mem_write_address m x v c hc with rfl | hc
    · exact hx
    · exact h.2 c hc

theorem Memory.wf_filter (m : Memory) (keep : Host.Cell → Bool) (h : Memory.wf m) : Memory.wf (m.filter keep) :=
  ⟨h.1.filter _, fun c hc => h.2 c (List.mem_of_mem_filter hc)⟩

/-- Clearing a byte keeps the canonical form. -/
theorem Memory.wf_clear (m : Memory) (x : Nat) (h : Memory.wf m) : Memory.wf (Memory.clear m x) :=
  Memory.wf_filter m _ h

/-- Clearing a range keeps the canonical form. -/
theorem Memory.wf_clearRange (m : Memory) (lo hi : Nat) (h : Memory.wf m) : Memory.wf (Memory.clearRange m lo hi) :=
  Memory.wf_filter m _ h

/-- Writing bytes that end below 2^64 keeps the canonical form. -/
theorem Memory.wf_writeBytes (m : Memory) (x : Nat) (bs : List Byte) (h : Memory.wf m) (hx : x + bs.length ≤ 2 ^ 64) :
    Memory.wf (Memory.writeBytes m x bs) := by
  induction bs generalizing m x with
  | nil => exact h
  | cons b rest ih =>
    simp only [List.length_cons] at hx
    exact ih _ _ (Memory.wf_write m x b h (by omega)) (by omega)

/-- The bytes a helper changes keep the canonical form. -/
theorem wf_applyWrites (m : Memory) (ws : List (Word × Option Byte)) (h : Memory.wf m) :
    Memory.wf (applyWrites m ws) := by
  induction ws generalizing m with
  | nil => exact h
  | cons w rest ih =>
    obtain ⟨a, ob⟩ := w
    cases ob with
    | none => exact ih _ (Memory.wf_clear m _ h)
    | some b => exact ih _ (Memory.wf_write m _ b h a.isLt)

/-- A byte that no write of a helper names reads as before. -/
theorem read_applyWrites_outside (m : Memory) (ws : List (Word × Option Byte)) (y : Nat)
    (h : ∀ w ∈ ws, w.1.toNat ≠ y) : Memory.read (applyWrites m ws) y = Memory.read m y := by
  induction ws generalizing m with
  | nil => rfl
  | cons w rest ih =>
    obtain ⟨a, ob⟩ := w
    have ha : y ≠ a.toNat := fun e => h (a, ob) List.mem_cons_self e.symm
    have hr : ∀ w ∈ rest, w.1.toNat ≠ y := fun w hw => h w (List.mem_cons_of_mem _ hw)
    cases ob with
    | none => simp [applyWrites, ih _ hr, ha]
    | some b => simp [applyWrites, ih _ hr, ha]

theorem applyWrites_append (m : Memory) (l r : List (Word × Option Byte)) :
    applyWrites m (l ++ r) = applyWrites (applyWrites m l) r := by
  induction l generalizing m with
  | nil => rfl
  | cons w rest ih =>
    obtain ⟨a, ob⟩ := w
    cases ob <;> exact ih _

/-- A byte that a helper's writes name reads as the last of them says. -/
theorem read_applyWrites_last (m : Memory) (l r : List (Word × Option Byte)) (a : Word) (ob : Option Byte)
    (h : ∀ w ∈ r, w.1 ≠ a) : Memory.read (applyWrites m (l ++ (a, ob) :: r)) a.toNat = ob := by
  have hr : ∀ w ∈ r, w.1.toNat ≠ a.toNat := fun w hw e => h w hw (BitVec.eq_of_toNat_eq e)
  rw [applyWrites_append]
  cases ob <;> simp [applyWrites, read_applyWrites_outside _ _ _ hr]

/-! ### Values and bytes -/

@[simp] theorem natToBytes_length (n v : Nat) : (natToBytes n v).length = n := by
  induction n generalizing v with
  | zero => rfl
  | succ n ih => simp [natToBytes, ih]

@[simp] theorem hostOrder_length (e : Endian) (bs : List Byte) : (hostOrder e bs).length = bs.length := by
  cases e <;> simp [hostOrder]

@[simp] theorem layOut_length (e : Endian) (n : Nat) (v : Word) : (layOut e n v).length = n := by
  simp [layOut]

@[simp] theorem hostOrder_hostOrder (e : Endian) (bs : List Byte) : hostOrder e (hostOrder e bs) = bs := by
  cases e <;> simp [hostOrder]

/-- The number that the low bytes of a number stand for. -/
theorem bytesToNat_natToBytes (n v : Nat) : bytesToNat (natToBytes n v) = v % 256 ^ n := by
  induction n generalizing v with
  | zero => simp [natToBytes, bytesToNat, Nat.mod_one]
  | succ n ih =>
    have h : bytesToNat (natToBytes (n + 1) v) = v % 256 + 256 * (v / 256 % 256 ^ n) := by
      simp only [natToBytes, bytesToNat, ih, BitVec.toNat_ofNat]
    rw [h, Nat.pow_succ', Nat.mod_mul]

/-- Bytes stand for a number below 256 to their count. -/
theorem bytesToNat_lt (bs : List Byte) : bytesToNat bs < 256 ^ bs.length := by
  induction bs with
  | nil => simp [bytesToNat]
  | cons b rest ih =>
    have := b.isLt
    simp only [bytesToNat, List.length_cons, Nat.pow_succ']
    omega

/-- The bytes of the number that some bytes stand for are those bytes. -/
theorem natToBytes_bytesToNat (bs : List Byte) : natToBytes bs.length (bytesToNat bs) = bs := by
  induction bs with
  | nil => rfl
  | cons b rest ih =>
    have hb := b.isLt
    simp only [List.length_cons, natToBytes, bytesToNat]
    have h1 : (b.toNat + 256 * bytesToNat rest) / 256 = bytesToNat rest := by omega
    rw [h1, ih]
    congr 1
    apply BitVec.eq_of_toNat_eq
    rw [BitVec.toNat_ofNat]
    omega

/-- A value laid out in `n` bytes and assembled again is its low `8n` bits, zero-extended (rules R62, R63). -/
theorem assemble_layOut (e : Endian) (n : Nat) (v : Word) :
    assemble e (layOut e n v) = BitVec.ofNat 64 (v.toNat % 256 ^ n) := by
  simp [assemble, layOut, bytesToNat_natToBytes]

/-- Byte `k` of the low bytes of a number. -/
theorem natToBytes_getElem? (n v k : Nat) (h : k < n) : (natToBytes n v)[k]? = some (BitVec.ofNat 8 (v / 256 ^ k)) := by
  induction n generalizing v k with
  | zero => omega
  | succ n ih =>
    cases k with
    | zero => simp [natToBytes]
    | succ k =>
      simp only [natToBytes, List.getElem?_cons_succ]
      rw [ih _ _ (by omega), Nat.div_div_eq_div_mul, Nat.pow_succ']

end Sys2Proof.Machine
end

