-- ==== Sys2Proof/Laws/Helpers.lean ====
section
/-!
SUPPORT. Laws/Helpers.lean: a helper's table of outcomes can say any function of the argument values and of data memory
(rules R10, R273), because there are finitely many of both.
-/

namespace Sys2Proof.Machine

/-- Two memories in canonical form whose bytes read alike are equal. -/
theorem Memory.ext_read {m n : Memory} (hm : m.wf) (hn : n.wf) (h : ∀ a, m.read a = n.read a) : m = n := by
  have read_ne : ∀ (m : Memory) (a : Nat), (∀ c ∈ m, a < c.1) → m.read a = none := by
    intro m a hlt
    induction m with
    | nil => rfl
    | cons c rest ih =>
      have := hlt c List.mem_cons_self
      simp only [Memory.read]
      rw [if_neg (by omega), ih fun d hd => hlt d (List.mem_cons_of_mem _ hd)]
  replace hm := hm.1
  replace hn := hn.1
  induction m generalizing n with
  | nil =>
    cases n with
    | nil => rfl
    | cons d _ => simpa [Memory.read] using h d.1
  | cons c m ih =>
    cases n with
    | nil => simpa [Memory.read] using h c.1
    | cons d n =>
      obtain ⟨hc, hm⟩ := List.pairwise_cons.mp hm
      obtain ⟨hd, hn⟩ := List.pairwise_cons.mp hn
      have hcd : c.1 = d.1 := by
        rcases Nat.lt_trichotomy c.1 d.1 with hlt | heq | hlt
        · have h1 := h c.1
          have h2 := read_ne (d :: n) c.1 fun e he => by
            rcases List.mem_cons.mp he with rfl | he
            · exact hlt
            · exact Nat.lt_trans hlt (hd e he)
          rw [h2] at h1
          simp [Memory.read] at h1
        · exact heq
        · have h1 := h d.1
          have h2 := read_ne (c :: m) d.1 fun e he => by
            rcases List.mem_cons.mp he with rfl | he
            · exact hlt
            · exact Nat.lt_trans hlt (hc e he)
          rw [h2] at h1
          simp [Memory.read] at h1
      have hcd2 : c.2 = d.2 := by simpa [Memory.read, hcd] using h c.1
      have hmn : m = n := by
        refine ih (fun a => ?_) hm hn
        by_cases ha : c.1 = a
        · subst ha
          rw [read_ne m c.1 hc, read_ne n c.1 (hcd ▸ hd)]
        · simpa [Memory.read, ha, hcd ▸ ha] using h a
      rw [hmn, Prod.ext hcd hcd2]

/-- All lists of at most `n` of the given things. -/
def listsUpTo {α : Type} (xs : List α) : Nat → List (List α)
  | 0 => [[]]
  | n + 1 => [] :: xs.flatMap fun x => (listsUpTo xs n).map (x :: ·)

theorem mem_listsUpTo {α : Type} {xs l : List α} {n : Nat} (hl : l.length ≤ n) (h : ∀ x ∈ l, x ∈ xs) :
    l ∈ listsUpTo xs n := by
  induction n generalizing l with
  | zero => simpa [listsUpTo] using hl
  | succ n ih =>
    cases l with
    | nil => simp [listsUpTo]
    | cons x l =>
      refine List.mem_cons_of_mem _ (List.mem_flatMap.mpr ⟨x, h x List.mem_cons_self, List.mem_map.mpr ⟨l, ?_, rfl⟩⟩)
      exact ih (by simpa using hl) fun y hy => h y (List.mem_cons_of_mem _ hy)

/-- A list that rises strictly between two bounds has no more entries than there are numbers between them. -/
theorem length_le_of_rising {m : Memory} {lo bound : Nat} (h : m.Pairwise fun c d => c.1 < d.1)
    (hb : ∀ c ∈ m, lo ≤ c.1 ∧ c.1 < bound) : m.length ≤ bound - lo := by
  induction m generalizing lo with
  | nil => simp
  | cons c m ih =>
    obtain ⟨h1, h2⟩ := List.pairwise_cons.mp h
    have hc := hb c List.mem_cons_self
    have := ih (lo := c.1 + 1) h2 fun d hd => ⟨h1 d hd, (hb d (List.mem_cons_of_mem _ hd)).2⟩
    simp only [List.length_cons]
    omega

/-- There are finitely many memories in canonical form whose addresses lie below a bound. -/
theorem exists_memories (bound : Nat) : ∃ ms : List Memory, ∀ m : Memory, (m.Pairwise fun c d => c.1 < d.1) →
    (∀ c ∈ m, c.1 < bound) → m ∈ ms := by
  refine ⟨listsUpTo ((List.range bound).flatMap fun a => (List.range 256).map fun b => (a, BitVec.ofNat 8 b)) bound,
    fun m h hb => mem_listsUpTo ?_ fun c hc => ?_⟩
  · exact length_le_of_rising (lo := 0) h fun c hc => ⟨Nat.zero_le _, hb c hc⟩
  · refine List.mem_flatMap.mpr ⟨c.1, List.mem_range.mpr (hb c hc), List.mem_map.mpr ⟨c.2.toNat, ?_, ?_⟩⟩
    · exact List.mem_range.mpr c.2.isLt
    · rw [BitVec.ofNat_toNat, BitVec.setWidth_eq]

/-- There are finitely many lists of argument values. -/
theorem exists_words (bound n : Nat) : ∃ vs : List (List Word), ∀ l : List Word, l.length ≤ n →
    (∀ v ∈ l, v.toNat < bound) → l ∈ vs := by
  refine ⟨listsUpTo ((List.range bound).map (BitVec.ofNat 64)) n, fun l hl h => mem_listsUpTo hl fun v hv => ?_⟩
  exact List.mem_map.mpr ⟨v.toNat, List.mem_range.mpr (h v hv), by rw [BitVec.ofNat_toNat, BitVec.setWidth_eq]⟩

/-- A table that lists a function's values on a list of arguments gives them. -/
theorem lookupTable_map {α β : Type} [DecidableEq α] (f : α → β) {l : List α} {a : α} (h : a ∈ l) :
    lookupTable (l.map fun x => (x, f x)) a = some (f a) := by
  induction l with
  | nil => simp at h
  | cons x l ih =>
    simp only [List.map_cons, lookupTable]
    split
    · next hx => rw [hx]
    · next hx => exact ih ((List.mem_cons.mp h).resolve_left fun e => hx e.symm)

/-- The writes that turn one memory into another: every byte of the old one loses its value, then the new ones are
written. -/
def replaceWrites (m n : Memory) : List (Word × Option Byte) :=
  (m.map fun c => (BitVec.ofNat 64 c.1, none)) ++ n.map fun c => (BitVec.ofNat 64 c.1, some c.2)

theorem applyWrites_replace {m n : Memory} (hm : m.wf) (hn : n.wf) : applyWrites m (replaceWrites m n) = n := by
  refine Memory.ext_read (wf_applyWrites _ _ hm) hn fun a => ?_
  rw [replaceWrites, applyWrites_append]
  have cleared : ∀ (l k : Memory), (∀ c ∈ l, c.1 < 2 ^ 64) →
      (applyWrites k (l.map fun c => (BitVec.ofNat 64 c.1, none))).read a =
        if a ∈ l.map Prod.fst then none else k.read a := by
    intro l
    induction l with
    | nil => intro k _; rfl
    | cons c l ih =>
      intro k hl
      have hc := hl c List.mem_cons_self
      simp only [List.map_cons, applyWrites, BitVec.toNat_ofNat, Nat.mod_eq_of_lt hc, List.mem_cons]
      rw [ih _ fun d hd => hl d (List.mem_cons_of_mem _ hd), Memory.read_clear]
      by_cases h1 : a = c.1 <;> by_cases h2 : a ∈ l.map Prod.fst <;> simp [h1, h2]
  have written : ∀ (l k : Memory), (l.Pairwise fun c d => c.1 < d.1) → (∀ c ∈ l, c.1 < 2 ^ 64) →
      (applyWrites k (l.map fun c => (BitVec.ofNat 64 c.1, some c.2))).read a =
        if a ∈ l.map Prod.fst then l.read a else k.read a := by
    intro l
    induction l with
    | nil => intro k _ _; rfl
    | cons c l ih =>
      intro k hp hl
      obtain ⟨h1, h2⟩ := List.pairwise_cons.mp hp
      have hc := hl c List.mem_cons_self
      simp only [List.map_cons, applyWrites, BitVec.toNat_ofNat, Nat.mod_eq_of_lt hc, List.mem_cons]
      rw [ih _ h2 fun d hd => hl d (List.mem_cons_of_mem _ hd), Memory.read_write]
      by_cases ha : a = c.1
      · have hn : a ∉ l.map Prod.fst := fun hmem => by
          obtain ⟨d, hd, he⟩ := List.mem_map.mp hmem
          have := h1 d hd
          omega
        simp [Memory.read, ha] at hn ⊢
        simp [hn]
      · by_cases h3 : a ∈ l.map Prod.fst <;> simp [Memory.read, ha, h3, Ne.symm ha]
  have absent : ∀ l : Memory, a ∉ l.map Prod.fst → l.read a = none := by
    intro l
    induction l with
    | nil => intro _; rfl
    | cons c l ih =>
      intro h
      simp only [List.map_cons, List.mem_cons, not_or] at h
      simp only [Memory.read]
      rw [if_neg (Ne.symm h.1), ih h.2]
  rw [written n _ hn.1 hn.2, cleared m _ hm.2]
  by_cases h1 : a ∈ n.map Prod.fst <;> by_cases h2 : a ∈ m.map Prod.fst <;> simp [h1, h2, absent]

/-- What a helper of the spec answers: R0's new value with the new data memory, or a fault of its own (rule R273). -/
def outcomeOf (m : Memory) : Except Nat (Word × Memory) → HelperOutcome
  | .ok (r0, n) => .returns r0 (replaceWrites m n)
  | .error reason => .fails reason

/-- Every function of the argument values and of data memory is what some helper's body runs (rules R10, R273). -/
theorem exists_helperBody (run : List Word → Memory → Except Nat (Word × Memory)) : ∃ body : HelperBody,
    body ≠ .external ∧ ∀ table id args m draw, args.length ≤ 5 → Memory.wf m →
      runHelper table id body args m draw = outcomeOf m (run args m) := by
  obtain ⟨ms, hms⟩ := exists_memories (2 ^ 64)
  obtain ⟨vs, hvs⟩ := exists_words (2 ^ 64) 5
  let f := fun x : List Word × Memory => outcomeOf x.2 (run x.1 x.2)
  refine ⟨.table ((vs.flatMap fun v => ms.map fun m => (v, m)).map fun x => (x, f x)) (.fails 0), nofun,
    fun table id args m draw ha hm => ?_⟩
  have hmem : (args, m) ∈ vs.flatMap fun v => ms.map fun m => (v, m) :=
    List.mem_flatMap.mpr ⟨args, hvs args ha fun v _ => v.isLt, List.mem_map.mpr ⟨m, hms m hm.1 hm.2, rfl⟩⟩
  rw [runHelper, lookupTable_map f hmem]
  rfl

end Sys2Proof.Machine
end

