-- ==== Sys2Proof/Laws/State.lean ====
section
/-!
SUPPORT. Laws/State.lean: what each update of the state does to each field, so that no later proof unfolds a record
update; and reading a register after writing one.
-/

namespace Sys2Proof.Machine

@[simp] theorem State.setReg_regs (s : State) (r : Reg) (v : Word) : (s.setReg r v).regs = s.regs.set r (some v) := rfl

@[simp] theorem State.setReg_pc (s : State) (r : Reg) (v : Word) : (s.setReg r v).pc = s.pc := rfl

@[simp] theorem State.setReg_frames (s : State) (r : Reg) (v : Word) : (s.setReg r v).frames = s.frames := rfl

@[simp] theorem State.setReg_mem (s : State) (r : Reg) (v : Word) : (s.setReg r v).mem = s.mem := rfl

@[simp] theorem State.setReg_status (s : State) (r : Reg) (v : Word) : (s.setReg r v).status = s.status := rfl

@[simp] theorem State.setReg_program (s : State) (r : Reg) (v : Word) : (s.setReg r v).program = s.program := rfl

@[simp] theorem State.setReg_params (s : State) (r : Reg) (v : Word) : (s.setReg r v).params = s.params := rfl

@[simp] theorem State.setReg_draws (s : State) (r : Reg) (v : Word) : (s.setReg r v).draws = s.draws := rfl

@[simp] theorem State.dropScratch_regs (s : State) : (s.dropScratch).regs = s.regs.dropScratch := rfl

@[simp] theorem State.dropScratch_pc (s : State) : (s.dropScratch).pc = s.pc := rfl

@[simp] theorem State.dropScratch_frames (s : State) : (s.dropScratch).frames = s.frames := rfl

@[simp] theorem State.dropScratch_mem (s : State) : (s.dropScratch).mem = s.mem := rfl

@[simp] theorem State.dropScratch_status (s : State) : (s.dropScratch).status = s.status := rfl

@[simp] theorem State.dropScratch_program (s : State) : (s.dropScratch).program = s.program := rfl

@[simp] theorem State.dropScratch_params (s : State) : (s.dropScratch).params = s.params := rfl

@[simp] theorem State.dropScratch_draws (s : State) : (s.dropScratch).draws = s.draws := rfl

@[simp] theorem State.advance_regs (s : State) (k : Nat) : (s.advance k).regs = s.regs := rfl

@[simp] theorem State.advance_pc (s : State) (k : Nat) : (s.advance k).pc = s.pc + k := rfl

@[simp] theorem State.advance_frames (s : State) (k : Nat) : (s.advance k).frames = s.frames := rfl

@[simp] theorem State.advance_mem (s : State) (k : Nat) : (s.advance k).mem = s.mem := rfl

@[simp] theorem State.advance_status (s : State) (k : Nat) : (s.advance k).status = s.status := rfl

@[simp] theorem State.advance_program (s : State) (k : Nat) : (s.advance k).program = s.program := rfl

@[simp] theorem State.advance_params (s : State) (k : Nat) : (s.advance k).params = s.params := rfl

@[simp] theorem State.advance_draws (s : State) (k : Nat) : (s.advance k).draws = s.draws := rfl

@[simp] theorem State.setMem_regs (s : State) (m : Memory) : (s.setMem m).regs = s.regs := rfl

@[simp] theorem State.setMem_pc (s : State) (m : Memory) : (s.setMem m).pc = s.pc := rfl

@[simp] theorem State.setMem_frames (s : State) (m : Memory) : (s.setMem m).frames = s.frames := rfl

@[simp] theorem State.setMem_mem (s : State) (m : Memory) : (s.setMem m).mem = m := rfl

@[simp] theorem State.setMem_status (s : State) (m : Memory) : (s.setMem m).status = s.status := rfl

@[simp] theorem State.setMem_program (s : State) (m : Memory) : (s.setMem m).program = s.program := rfl

@[simp] theorem State.setMem_params (s : State) (m : Memory) : (s.setMem m).params = s.params := rfl

@[simp] theorem State.setMem_draws (s : State) (m : Memory) : (s.setMem m).draws = s.draws := rfl

@[simp] theorem State.drew_regs (s : State) : (s.drew).regs = s.regs := rfl

@[simp] theorem State.drew_pc (s : State) : (s.drew).pc = s.pc := rfl

@[simp] theorem State.drew_frames (s : State) : (s.drew).frames = s.frames := rfl

@[simp] theorem State.drew_mem (s : State) : (s.drew).mem = s.mem := rfl

@[simp] theorem State.drew_status (s : State) : (s.drew).status = s.status := rfl

@[simp] theorem State.drew_program (s : State) : (s.drew).program = s.program := rfl

@[simp] theorem State.drew_params (s : State) : (s.drew).params = s.params := rfl

@[simp] theorem State.drew_draws (s : State) : (s.drew).draws = s.draws + 1 := rfl

@[simp] theorem State.store_regs (s : State) (addr : Word) (n : Nat) (v : Word) : (s.store addr n v).regs = s.regs := rfl

@[simp] theorem State.store_pc (s : State) (addr : Word) (n : Nat) (v : Word) : (s.store addr n v).pc = s.pc := rfl

@[simp] theorem State.store_frames (s : State) (addr : Word) (n : Nat) (v : Word) : (s.store addr n v).frames = s.frames := rfl

@[simp] theorem State.store_mem (s : State) (addr : Word) (n : Nat) (v : Word) : (s.store addr n v).mem = s.mem.writeBytes addr.toNat (layOut s.params.hostEndian n v) := rfl

@[simp] theorem State.store_status (s : State) (addr : Word) (n : Nat) (v : Word) : (s.store addr n v).status = s.status := rfl

@[simp] theorem State.store_program (s : State) (addr : Word) (n : Nat) (v : Word) : (s.store addr n v).program = s.program := rfl

@[simp] theorem State.store_params (s : State) (addr : Word) (n : Nat) (v : Word) : (s.store addr n v).params = s.params := rfl

@[simp] theorem State.store_draws (s : State) (addr : Word) (n : Nat) (v : Word) : (s.store addr n v).draws = s.draws := rfl

@[simp] theorem State.enter_regs (s : State) (t : Nat) : (s.enter t).regs = { s.regs with
      r0 := none
      r6 := none
      r7 := none
      r8 := none
      r9 := none
      r10 := some (s.params.framePointer (s.depth + 1)) } := rfl

@[simp] theorem State.enter_pc (s : State) (t : Nat) : (s.enter t).pc = t := rfl

@[simp] theorem State.enter_frames (s : State) (t : Nat) : (s.enter t).frames = s.savedFrame :: s.frames := rfl

@[simp] theorem State.enter_mem (s : State) (t : Nat) : (s.enter t).mem =
    s.mem.clearRange (s.params.frameBase (s.depth + 1)) (s.params.frameTop (s.depth + 1)) := rfl

@[simp] theorem State.enter_status (s : State) (t : Nat) : (s.enter t).status = s.status := rfl

@[simp] theorem State.enter_program (s : State) (t : Nat) : (s.enter t).program = s.program := rfl

@[simp] theorem State.enter_params (s : State) (t : Nat) : (s.enter t).params = s.params := rfl

@[simp] theorem State.enter_draws (s : State) (t : Nat) : (s.enter t).draws = s.draws := rfl

@[simp] theorem State.leave_regs (s : State) (f : Frame) (rest : List Frame) : (s.leave f rest).regs = { s.regs.dropScratch with
      r6 := f.r6
      r7 := f.r7
      r8 := f.r8
      r9 := f.r9
      r10 := f.r10 } := rfl

@[simp] theorem State.leave_pc (s : State) (f : Frame) (rest : List Frame) : (s.leave f rest).pc = f.ret := rfl

@[simp] theorem State.leave_frames (s : State) (f : Frame) (rest : List Frame) : (s.leave f rest).frames = rest := rfl

@[simp] theorem State.leave_mem (s : State) (f : Frame) (rest : List Frame) : (s.leave f rest).mem = s.mem.clearRange (s.params.frameBase s.depth) (s.params.frameTop s.depth) := rfl

@[simp] theorem State.leave_status (s : State) (f : Frame) (rest : List Frame) : (s.leave f rest).status = s.status := rfl

@[simp] theorem State.leave_program (s : State) (f : Frame) (rest : List Frame) : (s.leave f rest).program = s.program := rfl

@[simp] theorem State.leave_params (s : State) (f : Frame) (rest : List Frame) : (s.leave f rest).params = s.params := rfl

@[simp] theorem State.leave_draws (s : State) (f : Frame) (rest : List Frame) : (s.leave f rest).draws = s.draws := rfl

/-- Reading a register after a register has been written, or made unwritten. -/
@[simp] theorem Regs.get_set (x : Regs) (r q : Reg) (v : Option Word) :
    (x.set r v).get q = if q = r then v else x.get q := by
  cases r <;> cases q <;> rfl

/-- Writing a register twice leaves the second value. -/
@[simp] theorem Regs.set_set (x : Regs) (r : Reg) (v w : Option Word) : (x.set r v).set r w = x.set r w := by
  cases r <;> rfl

/-- Two register files are the same when every register reads the same. -/
theorem Regs.ext_get (x y : Regs) (h : ∀ r, x.get r = y.get r) : x = y := by
  obtain ⟨⟩ := x
  obtain ⟨⟩ := y
  have h0 := h .r0
  have h1 := h .r1
  have h2 := h .r2
  have h3 := h .r3
  have h4 := h .r4
  have h5 := h .r5
  have h6 := h .r6
  have h7 := h .r7
  have h8 := h .r8
  have h9 := h .r9
  have h10 := h .r10
  simp only [Regs.get] at *
  simp [*]

/-- The registers that are not R1 to R5 keep what they hold when the scratch registers are dropped. -/
theorem Regs.get_dropScratch (x : Regs) (q : Reg) :
    x.dropScratch.get q = if q = .r1 ∨ q = .r2 ∨ q = .r3 ∨ q = .r4 ∨ q = .r5 then none else x.get q := by
  cases q <;> simp [Regs.dropScratch, Regs.get]

@[simp] theorem State.reg_setReg (s : State) (r q : Reg) (v : Word) :
    (s.setReg r v).reg q = if q = r then some v else s.reg q := by
  simp [State.reg]

@[simp] theorem State.reg_advance (s : State) (k : Nat) (q : Reg) : (s.advance k).reg q = s.reg q := rfl

@[simp] theorem State.reg_setMem (s : State) (m : Memory) (q : Reg) : (s.setMem m).reg q = s.reg q := rfl

@[simp] theorem State.reg_store (s : State) (addr : Word) (n : Nat) (v : Word) (q : Reg) :
    (s.store addr n v).reg q = s.reg q := rfl

@[simp] theorem State.reg_drew (s : State) (q : Reg) : s.drew.reg q = s.reg q := rfl

@[simp] theorem State.depth_setReg (s : State) (r : Reg) (v : Word) : (s.setReg r v).depth = s.depth := rfl

@[simp] theorem State.depth_advance (s : State) (k : Nat) : (s.advance k).depth = s.depth := rfl

@[simp] theorem State.depth_setMem (s : State) (m : Memory) : (s.setMem m).depth = s.depth := rfl

@[simp] theorem State.depth_store (s : State) (addr : Word) (n : Nat) (v : Word) : (s.store addr n v).depth = s.depth :=
  rfl

@[simp] theorem State.depth_dropScratch (s : State) : s.dropScratch.depth = s.depth := rfl

@[simp] theorem State.depth_drew (s : State) : s.drew.depth = s.depth := rfl

end Sys2Proof.Machine
end

