-- ==== Sys2Proof/Laws/Ops.lean ====
section
/-!
SUPPORT. Laws/Ops.lean: what each shared operation and operand form can do, said once, and from it what every
instruction can do (`exec_effect`). A proof about all instructions cites `exec_effect` and unfolds no meaning.
-/

namespace Sys2Proof.Machine

/-! ### Reads of registers and of memory, and targets of jumps: the operation goes on, or raises -/

@[simp] theorem State.withReg_of_some (s : State) (r : Reg) (k : Word → StepResult) (v : Word) (h : s.reg r = some v) :
    s.withReg r k = k v := by
  simp only [State.withReg, h]

@[simp] theorem State.withReg_of_none (s : State) (r : Reg) (k : Word → StepResult) (h : s.reg r = none) :
    s.withReg r k = s.raise (.uninitRegister r) := by
  simp only [State.withReg, h]

theorem State.readMem_of_refused (s : State) (addr : Word) (n : Nat) (kind : AccessKind) (k : Word → StepResult)
    (h : s.admits addr n kind = false) : s.readMem addr n kind k = s.raise (.memoryAccessFault addr n kind) := by
  simp [State.readMem, h]

theorem State.readMem_of_some (s : State) (addr : Word) (n : Nat) (kind : AccessKind) (k : Word → StepResult)
    (bs : List Byte) (h : s.admits addr n kind = true) (hb : s.mem.readBytes addr.toNat n = some bs) :
    s.readMem addr n kind k = k (assemble s.params.hostEndian bs) := by
  simp only [State.readMem, h, hb, if_true]

theorem State.readMem_of_none (s : State) (addr : Word) (n : Nat) (kind : AccessKind) (k : Word → StepResult)
    (h : s.admits addr n kind = true) (hb : s.mem.readBytes addr.toNat n = none) :
    s.readMem addr n kind k = s.raise (.uninitMemory addr) := by
  simp only [State.readMem, h, hb, if_true]

theorem State.writeMem_of_refused (s : State) (addr : Word) (n : Nat) (v : Word) (k : State → StepResult)
    (h : s.admits addr n .write = false) : s.writeMem addr n v k = s.raise (.memoryAccessFault addr n .write) := by
  simp [State.writeMem, h]

theorem State.writeMem_of_admitted (s : State) (addr : Word) (n : Nat) (v : Word) (k : State → StepResult)
    (h : s.admits addr n .write = true) : s.writeMem addr n v k = k (s.store addr n v) := by
  simp only [State.writeMem, h, if_true]

theorem State.checkTarget_of_outside (s : State) (t : Int) (k : Nat → StepResult)
    (h : t < 0 ∨ (s.program.length : Int) ≤ t) : s.checkTarget t k = s.raise (.jumpOutOfRange t) := by
  simp only [State.checkTarget, h, if_true]

theorem State.checkTarget_of_second (s : State) (t : Nat) (k : Nat → StepResult) (h : t < s.program.length)
    (h2 : isSecondSlot s.program t = true) : s.checkTarget t k = s.raise (.jumpIntoWide t) := by
  have : ¬((t : Int) < 0 ∨ (s.program.length : Int) ≤ t) := by omega
  simp only [State.checkTarget, this, if_false, Int.toNat_natCast, h2, if_true]

theorem State.checkTarget_of_good (s : State) (t : Nat) (k : Nat → StepResult) (h : t < s.program.length)
    (h2 : isSecondSlot s.program t = false) : s.checkTarget t k = k t := by
  have : ¬((t : Int) < 0 ∨ (s.program.length : Int) ≤ t) := by omega
  simp only [State.checkTarget, this, if_false, Int.toNat_natCast, h2]
  rfl

/-- Reads of several registers that all hold a value. -/
theorem State.withRegs_of_some (s : State) (rs : List Reg) (vs : List Word) (k : List Word → StepResult)
    (h : rs.map s.reg = vs.map some) : s.withRegs rs k = k vs := by
  induction rs generalizing vs k with
  | nil => cases vs <;> simp_all [State.withRegs]
  | cons r rs ih =>
    cases vs with
    | nil => simp at h
    | cons v vs =>
      simp only [List.map_cons, List.cons.injEq] at h
      exact (State.withReg_of_some _ _ _ _ h.1).trans (ih vs _ h.2)

/-- Reads of several registers, one of which holds no value while those before it do. -/
theorem State.withRegs_of_none (s : State) (l r : List Reg) (q : Reg) (k : List Word → StepResult)
    (hl : ∀ x ∈ l, s.reg x ≠ none) (hq : s.reg q = none) :
    s.withRegs (l ++ q :: r) k = s.raise (.uninitRegister q) := by
  induction l generalizing k with
  | nil => exact State.withReg_of_none _ _ _ hq
  | cons x l ih =>
    obtain ⟨v, hv⟩ := Option.ne_none_iff_exists'.mp (hl x (by simp))
    exact (State.withReg_of_some _ _ _ _ hv).trans (ih _ fun y hy => hl y (by simp [hy]))

/-! ### What an instruction can do -/

/-- An instruction that writes R0 although no field names it: `CMPXCHG` (rule R377). -/
def comparesWithR0 (i : Instr) : Prop :=
  ∃ dst src off, i = .stxAtomicWCmpxchg dst src off ∨ i = .stxAtomicDwCmpxchg dst src off

/-- The instruction is of class `ALU` or `ALU64` (rule R107). -/
def isArithmetic (i : Instr) : Bool :=
  (i.fields.opcode &&& 7#8).toNat == 4 || (i.fields.opcode &&& 7#8).toNat == 7

theorem not_arithmetic {i : Instr} (o : BitVec 8) (ho : i.fields.opcode = o) (h4 : ((o &&& 7#8).toNat == 4) = false)
    (h7 : ((o &&& 7#8).toNat == 7) = false) : isArithmetic i = false := by
  simp only [isArithmetic, ho, h4, h7, Bool.or_self]

/-- The instruction is of class `ST` or `STX` (rule R107). -/
def isStoring (i : Instr) : Bool :=
  (i.fields.opcode &&& 7#8).toNat == 2 || (i.fields.opcode &&& 7#8).toNat == 3

/-- How many bytes a load, a store or an atomic operation accesses, from bits 4:3 of its 'opcode' (rule R69). -/
def accessBytes (i : Instr) : Nat :=
  match (i.fields.opcode >>> 3 &&& 3#8).toNat with
  | 0 => 4
  | 1 => 2
  | 2 => 1
  | _ => 8

/-- The kind of access with which an instruction of class `ST` or `STX` changes memory: 'opcode' 0xc3 and 0xdb are the
atomic operations (rules R63, R371). -/
def storeKind (i : Instr) : AccessKind :=
  if i.fields.opcode = 0xc3#8 ∨ i.fields.opcode = 0xdb#8 then .atomic else .write

/-- An instruction stores as many bytes as its size says at the effective address of its base register, with an access of
its kind that is admitted. -/
structure Storing (i : Instr) (s : State) (addr : Word) (n : Nat) : Prop where
  storing : isStoring i = true
  one : i.length = 1
  size : n = accessBytes i
  admitted : ∃ (r : Reg) (base : Word), r.num = i.fields.dst ∧ s.reg r = some base ∧
    addr = effectiveAddr base i.fields.offset ∧ s.admits addr n (storeKind i) = true

/-- A packet load reads `n` bytes at a signed offset of the packet: `ABS` at its 'imm', `IND` at the signed 32-bit sum of
its register and its 'imm' (rule R432). -/
inductive PacketAccess (s : State) : Instr → Nat → Int → Prop
  | absW (imm : Word32) : PacketAccess s (.ldAbsW imm) 4 imm.toInt
  | absH (imm : Word32) : PacketAccess s (.ldAbsH imm) 2 imm.toInt
  | absB (imm : Word32) : PacketAccess s (.ldAbsB imm) 1 imm.toInt
  | indW (src : Reg) (imm : Word32) (v : Word) (h : s.reg src = some v) :
    PacketAccess s (.ldIndW src imm) 4 (low32 v + imm).toInt
  | indH (src : Reg) (imm : Word32) (v : Word) (h : s.reg src = some v) :
    PacketAccess s (.ldIndH src imm) 2 (low32 v + imm).toInt
  | indB (src : Reg) (imm : Word32) (v : Word) (h : s.reg src = some v) :
    PacketAccess s (.ldIndB src imm) 1 (low32 v + imm).toInt

/-- What a helper call has looked up, read and run when it goes on: its entry of the table, its arguments, and a run that
answers R0 and the bytes it changed (rule R273). `u` is the state the results are written to. -/
structure HelperRun (s : State) (table : HelperTable) (id : Word32) (r0 : Word) (writes : List (Word × Option Byte))
    (u : State) : Prop where
  ran : ∃ (hp : Helper) (args : List Word), lookupTable (s.params.helperTable table) id = some hp ∧
    (argRegs.take hp.arity.val).map s.reg = args.map some ∧
    runHelper table id hp.body args s.mem s.draws = .returns r0 writes ∧
    u = if hp.body = .external then s.drew else s

/-- The state that a helper's results are written to differs from the one before in the draws at most. -/
theorem HelperRun.state {s u : State} {table : HelperTable} {id : Word32} {r0 : Word} {writes : List (Word × Option Byte)}
    (h : HelperRun s table id r0 writes u) : u = s ∨ u = s.drew := by
  obtain ⟨hp, _, _, _, _, rfl⟩ := h
  split
  · exact .inr rfl
  · exact .inl rfl

/-- The next states that an instruction can answer from a state. -/
inductive Effect (i : Instr) (s : State) : State → Prop
  /-- it reads an unwritten register -/
  | unwritten (q : Reg) (hq : q ∈ i.reads) (h : s.reg q = none) :
    Effect i s { s with status := .faulted (.uninitRegister q) }
  /-- it raises another fault; an arithmetic instruction has none -/
  | raised (r : FaultReason) (h : isArithmetic i = false) : Effect i s { s with status := .faulted r }
  /-- it ends the run -/
  | halted (v : Word)
    (h : (i = .jmpExit ∧ s.frames = [] ∧ s.reg .r0 = some v) ∨
      (v = 0 ∧ ∃ (pkt : List Byte) (n : Nat) (k : Int), s.params.packet = .linux pkt ∧ PacketAccess s i n k ∧
        (k < 0 ∨ (pkt.length : Int) < k + n))) :
    Effect i s { s with status := .halted v }
  /-- it writes its destination and goes on -/
  | wrote (dst : Reg) (v : Word) (h : i.writtenReg = some dst) : Effect i s ((s.setReg dst v).advance i.length)
  /-- it writes a drawn quotient and goes on -/
  | wroteDrawn (dst : Reg) (v : Word) (h : i.writtenReg = some dst) (h1 : i.length = 1) :
    Effect i s ((s.drew.setReg dst v).advance 1)
  /-- it is a jump that is not taken -/
  | wentOn (h1 : i.length = 1) : Effect i s (s.advance 1)
  /-- it is a taken jump -/
  | jumped (t : Nat) (h : t < s.program.length) (h2 : isSecondSlot s.program t = false) : Effect i s { s with pc := t }
  /-- it stores -/
  | stored (addr : Word) (n : Nat) (v : Word) (h : Storing i s addr n) : Effect i s ((s.store addr n v).advance 1)
  /-- it stores, writes a register with what was there, and goes on -/
  | exchanged (addr : Word) (n : Nat) (v : Word) (dst : Reg) (w : Word) (h : Storing i s addr n)
    (hd : i.writtenReg = some dst ∨ (dst = .r0 ∧ comparesWithR0 i)) :
    Effect i s (((s.store addr n v).setReg dst w).advance 1)
  /-- it is a `CMPXCHG` whose comparison fails -/
  | compared (w : Word) (h1 : i.length = 1) (h : comparesWithR0 i) : Effect i s ((s.setReg .r0 w).advance 1)
  /-- it is a call of a helper -/
  | helped (table : HelperTable) (id : Word32)
    (hi : (i = .jmpCallHelper id ∧ table = .static) ∨ (i = .jmpCallBtf id ∧ table = .btf)) (u : State) (r0 : Word)
    (writes : List (Word × Option Byte)) (h : HelperRun s table id r0 writes u) :
    Effect i s (((u.setMem (applyWrites s.mem writes)).setReg .r0 r0).dropScratch.advance 1)
  /-- it is a packet load inside the packet -/
  | loadedPacket (v : Word) (h : i.group = .packet) (h1 : i.length = 1) : Effect i s ((s.setReg .r0 v).dropScratch.advance 1)
  /-- it is a program-local call -/
  | entered (imm : Word32) (t : Nat) (hi : i = .jmpCallLocal imm) (hd : s.depth < s.params.maxCallDepth)
    (h : t < s.program.length) (h2 : isSecondSlot s.program t = false) : Effect i s (s.enter t)
  /-- it is a return from a program-local function -/
  | left (f : Frame) (rest : List Frame) (hi : i = .jmpExit) (h : s.frames = f :: rest) : Effect i s (s.leave f rest)

/-- An answer is a next state that the instruction can lead to. -/
def Did (i : Instr) (s : State) (r : StepResult) : Prop := ∃ t, r = .next t ∧ Effect i s t

theorem did_raise {i : Instr} {s : State} (r : FaultReason) (h : isArithmetic i = false) : Did i s (s.raise r) :=
  ⟨_, rfl, .raised r h⟩

/-- Reading a register that the instruction reads. -/
theorem did_withReg {i : Instr} {s : State} {r : Reg} {k : Word → StepResult} (hq : r ∈ i.reads)
    (h : ∀ v, s.reg r = some v → Did i s (k v)) : Did i s (s.withReg r k) := by
  cases hr : s.reg r with
  | none => exact ⟨_, State.withReg_of_none s r k hr, .unwritten r hq hr⟩
  | some v =>
    rw [State.withReg_of_some s r k v hr]
    exact h v hr

/-- Reading a register that the instruction reads after something else, or not always. -/
theorem did_withReg_late {i : Instr} {s : State} {r : Reg} {k : Word → StepResult} (ha : isArithmetic i = false)
    (h : ∀ v, s.reg r = some v → Did i s (k v)) : Did i s (s.withReg r k) := by
  cases hr : s.reg r with
  | none =>
    rw [State.withReg_of_none s r k hr]
    exact did_raise _ ha
  | some v =>
    rw [State.withReg_of_some s r k v hr]
    exact h v hr

theorem did_writeNext {i : Instr} {s : State} {dst : Reg} {v : Word} (h : i.writtenReg = some dst) (h1 : i.length = 1) :
    Did i s (s.writeNext dst v) :=
  ⟨_, rfl, h1 ▸ .wrote dst v h⟩

theorem did_readMem {i : Instr} {s : State} {addr : Word} {n : Nat} {kind : AccessKind} {k : Word → StepResult}
    (ha : isArithmetic i = false) (h : ∀ v, s.admits addr n kind = true → Did i s (k v)) :
    Did i s (s.readMem addr n kind k) := by
  cases hp : s.admits addr n kind with
  | false =>
    rw [State.readMem_of_refused s addr n kind k hp]
    exact did_raise _ ha
  | true =>
    cases hb : s.mem.readBytes addr.toNat n with
    | none =>
      rw [State.readMem_of_none s addr n kind k hp hb]
      exact did_raise _ ha
    | some bs =>
      rw [State.readMem_of_some s addr n kind k bs hp hb]
      exact h _ hp

theorem did_checkTarget {i : Instr} {s : State} {t : Int} {k : Nat → StepResult} (ha : isArithmetic i = false)
    (h : ∀ n, n < s.program.length → isSecondSlot s.program n = false → Did i s (k n)) : Did i s (s.checkTarget t k) := by
  by_cases ho : t < 0 ∨ (s.program.length : Int) ≤ t
  · rw [State.checkTarget_of_outside s t k ho]
    exact did_raise _ ha
  · obtain ⟨n, rfl⟩ : ∃ n : Nat, t = n := ⟨t.toNat, by omega⟩
    have hn : n < s.program.length := by omega
    cases h2 : isSecondSlot s.program n with
    | true =>
      rw [State.checkTarget_of_second s n k hn h2]
      exact did_raise _ ha
    | false =>
      rw [State.checkTarget_of_good s n k hn h2]
      exact h n hn h2

theorem did_goto {i : Instr} {s : State} {t : Int} (ha : isArithmetic i = false) : Did i s (s.goto t) :=
  did_checkTarget ha fun n h h2 => ⟨_, rfl, .jumped n h h2⟩

theorem did_jumpIf {i : Instr} {s : State} {taken : Bool} {off : BitVec 16} (ha : isArithmetic i = false)
    (h1 : i.length = 1) : Did i s (s.jumpIf taken off) := by
  cases taken with
  | true => exact did_goto ha
  | false => exact ⟨_, rfl, .wentOn h1⟩

/-! ### The operand forms -/

section forms

variable {i : Instr} {s : State} {dst src : Reg} {imm : Word32} {off : BitVec 16} {n : Nat}

theorem did_alu32K {f : Word32 → Word32 → Word32} (hw : i.writtenReg = some dst) (h1 : i.length = 1)
    (hr : i.reads = [dst]) : Did i s (alu32K f dst imm s) :=
  did_withReg (by simp [hr]) fun _ _ => did_writeNext hw h1

theorem did_alu64K {f : Word → Word → Word} (hw : i.writtenReg = some dst) (h1 : i.length = 1)
    (hr : i.reads = [dst]) : Did i s (alu64K f dst imm s) :=
  did_withReg (by simp [hr]) fun _ _ => did_writeNext hw h1

theorem did_alu32X {f : Word32 → Word32 → Word32} (hw : i.writtenReg = some dst) (h1 : i.length = 1)
    (hr : i.reads = [dst, src]) : Did i s (alu32X f dst src s) :=
  did_withReg (by simp [hr]) fun _ _ => did_withReg (by simp [hr]) fun _ _ => did_writeNext hw h1

theorem did_alu64X {f : Word → Word → Word} (hw : i.writtenReg = some dst) (h1 : i.length = 1)
    (hr : i.reads = [dst, src]) : Did i s (alu64X f dst src s) :=
  did_withReg (by simp [hr]) fun _ _ => did_withReg (by simp [hr]) fun _ _ => did_writeNext hw h1

theorem did_alu32Unary {f : Word32 → Word32} (hw : i.writtenReg = some dst) (h1 : i.length = 1)
    (hr : i.reads = [dst]) : Did i s (alu32Unary f dst s) :=
  did_withReg (by simp [hr]) fun _ _ => did_writeNext hw h1

theorem did_alu64Unary {f : Word → Word} (hw : i.writtenReg = some dst) (h1 : i.length = 1)
    (hr : i.reads = [dst]) : Did i s (alu64Unary f dst s) :=
  did_withReg (by simp [hr]) fun _ _ => did_writeNext hw h1

theorem did_swapLow {f : BitVec n → BitVec n} (hw : i.writtenReg = some dst) (h1 : i.length = 1)
    (hr : i.reads = [dst]) : Did i s (swapLow n f dst s) :=
  did_withReg (by simp [hr]) fun _ _ => did_writeNext hw h1

theorem did_moveX {f : Word → Word} (hw : i.writtenReg = some dst) (h1 : i.length = 1)
    (hr : i.reads = [src]) : Did i s (moveX f dst src s) :=
  did_withReg (by simp [hr]) fun _ _ => did_writeNext hw h1

theorem did_writeQuotient {a b : BitVec n} (hw : i.writtenReg = some dst) (h1 : i.length = 1) :
    Did i s (s.writeQuotient dst a b) := by
  unfold State.writeQuotient
  split
  · exact ⟨_, rfl, .wroteDrawn dst _ hw h1⟩
  · exact did_writeNext hw h1

theorem did_sdiv32K (hw : i.writtenReg = some dst) (h1 : i.length = 1) (hr : i.reads = [dst]) :
    Did i s (sdiv32K dst imm s) :=
  did_withReg (by simp [hr]) fun _ _ => did_writeQuotient hw h1

theorem did_sdiv64K (hw : i.writtenReg = some dst) (h1 : i.length = 1) (hr : i.reads = [dst]) :
    Did i s (sdiv64K dst imm s) :=
  did_withReg (by simp [hr]) fun _ _ => did_writeQuotient hw h1

theorem did_sdiv32X (hw : i.writtenReg = some dst) (h1 : i.length = 1) (hr : i.reads = [dst, src]) :
    Did i s (sdiv32X dst src s) :=
  did_withReg (by simp [hr]) fun _ _ => did_withReg (by simp [hr]) fun _ _ => did_writeQuotient hw h1

theorem did_sdiv64X (hw : i.writtenReg = some dst) (h1 : i.length = 1) (hr : i.reads = [dst, src]) :
    Did i s (sdiv64X dst src s) :=
  did_withReg (by simp [hr]) fun _ _ => did_withReg (by simp [hr]) fun _ _ => did_writeQuotient hw h1

theorem did_jump32K {c : Word32 → Word32 → Bool} (ha : isArithmetic i = false) (h1 : i.length = 1) (hr : i.reads = [dst]) :
    Did i s (jump32K c dst off imm s) :=
  did_withReg (by simp [hr]) fun _ _ => did_jumpIf ha h1

theorem did_jump64K {c : Word → Word → Bool} (ha : isArithmetic i = false) (h1 : i.length = 1) (hr : i.reads = [dst]) :
    Did i s (jump64K c dst off imm s) :=
  did_withReg (by simp [hr]) fun _ _ => did_jumpIf ha h1

theorem did_jump32X {c : Word32 → Word32 → Bool} (ha : isArithmetic i = false) (h1 : i.length = 1)
    (hr : i.reads = [dst, src]) : Did i s (jump32X c dst src off s) :=
  did_withReg (by simp [hr]) fun _ _ => did_withReg (by simp [hr]) fun _ _ => did_jumpIf ha h1

theorem did_jump64X {c : Word → Word → Bool} (ha : isArithmetic i = false) (h1 : i.length = 1)
    (hr : i.reads = [dst, src]) : Did i s (jump64X c dst src off s) :=
  did_withReg (by simp [hr]) fun _ _ => did_withReg (by simp [hr]) fun _ _ => did_jumpIf ha h1

theorem did_loadForm {f : Word → Word} (ha : isArithmetic i = false) (hw : i.writtenReg = some dst) (h1 : i.length = 1)
    (hr : i.reads = [src]) : Did i s (loadForm n f dst src off s) :=
  did_withReg (by simp [hr]) fun _ _ => did_readMem ha fun _ _ => did_writeNext hw h1

/-- What the syntax of a storing instruction says of its form: the class, one slot, the base register, the offset, the size
and the kind of the access. -/
structure StoreForm (i : Instr) (dst : Reg) (off : BitVec 16) (n : Nat) (kind : AccessKind) : Prop where
  storing : isStoring i = true
  one : i.length = 1
  base : dst.num = i.fields.dst
  off : off = i.fields.offset
  size : n = accessBytes i
  kind : kind = storeKind i

theorem StoreForm.intro {kind : AccessKind} (o : BitVec 8) (ho : i.fields.opcode = o := by rfl)
    (hs : ((o &&& 7#8).toNat == 2 || (o &&& 7#8).toNat == 3) = true := by rfl) (h1 : i.length = 1 := by rfl)
    (hd : dst.num = i.fields.dst := by rfl) (hoff : off = i.fields.offset := by rfl)
    (hn : n = (match (o >>> 3 &&& 3#8).toNat with | 0 => 4 | 1 => 2 | 2 => 1 | _ => 8) := by rfl)
    (hk : kind = (if o = 0xc3#8 ∨ o = 0xdb#8 then .atomic else .write) := by rfl) : StoreForm i dst off n kind :=
  ⟨by rw [isStoring, ho, hs], h1, hd, hoff, by rw [hn, accessBytes, ho], by rw [hk, storeKind, ho]⟩

theorem StoreForm.does {base : Word} {kind : AccessKind} (hf : StoreForm i dst off n kind) (hb : s.reg dst = some base)
    (hp : s.admits (effectiveAddr base off) n kind = true) : Storing i s (effectiveAddr base off) n :=
  ⟨hf.storing, hf.one, hf.size, dst, base, hf.base, hb, by rw [hf.off], by rw [← hf.kind, hp]⟩

theorem did_writeMem {base v : Word} (ha : isArithmetic i = false) (hf : StoreForm i dst off n .write)
    (hb : s.reg dst = some base) :
    Did i s (s.writeMem (effectiveAddr base off) n v fun t => .next (t.advance 1)) := by
  cases hp : s.admits (effectiveAddr base off) n .write with
  | false =>
    rw [State.writeMem_of_refused _ _ _ _ _ hp]
    exact did_raise _ ha
  | true =>
    rw [State.writeMem_of_admitted _ _ _ _ _ hp]
    exact ⟨_, rfl, .stored _ n v (hf.does hb hp)⟩

theorem did_storeImm (ha : isArithmetic i = false) (hf : StoreForm i dst off n .write) (hr : i.reads = [dst]) :
    Did i s (storeImm n dst off imm s) :=
  did_withReg (by simp [hr]) fun _ hb => did_writeMem ha hf hb

theorem did_storeReg (ha : isArithmetic i = false) (hf : StoreForm i dst off n .write) (hr : i.reads = [dst, src]) :
    Did i s (storeReg n dst src off s) :=
  did_withReg (by simp [hr]) fun _ hb => did_withReg (by simp [hr]) fun _ _ => did_writeMem ha hf hb

theorem did_atomicForm {f : Word → Word → Word} (ha : isArithmetic i = false) (hf : StoreForm i dst off n .atomic)
    (hr : i.reads = [dst, src]) : Did i s (atomicForm n f dst src off s) :=
  did_withReg (by simp [hr]) fun _ hb => did_withReg (by simp [hr]) fun v _ => did_readMem ha fun old hp =>
    ⟨_, rfl, .stored _ n (f old v) (hf.does hb hp)⟩

theorem did_atomicFetchForm {f : Word → Word → Word} (ha : isArithmetic i = false) (hf : StoreForm i dst off n .atomic)
    (hr : i.reads = [dst, src]) (hw : i.writtenReg = some src) : Did i s (atomicFetchForm n f dst src off s) :=
  did_withReg (by simp [hr]) fun _ hb => did_withReg (by simp [hr]) fun v _ => did_readMem ha fun old hp =>
    ⟨_, rfl, .exchanged _ n (f old v) src old (hf.does hb hp) (.inl hw)⟩

theorem did_cmpxchgForm {eq : Word → Word → Bool} (ha : isArithmetic i = false) (hf : StoreForm i dst off n .atomic)
    (hr : i.reads = [dst, src, .r0]) (hc : comparesWithR0 i) : Did i s (cmpxchgForm n eq dst src off s) := by
  refine did_withReg (by simp [hr]) fun base hb => did_withReg (by simp [hr]) fun v _ => did_withReg (by simp [hr]) fun e _ =>
    did_readMem ha fun old hp => ?_
  cases he : eq old e with
  | true => exact ⟨_, by simp only [he, if_true]; rfl,
      .exchanged _ n v .r0 old (hf.does hb hp) (.inr ⟨rfl, hc⟩)⟩
  | false => exact ⟨_, by simp only [he]; rfl, .compared old hf.one hc⟩

theorem did_writeWide {v : Option Word} (ha : isArithmetic i = false) (hw : i.writtenReg = some dst) (h2 : i.length = 2) :
    Did i s (s.writeWide dst v) := by
  cases v with
  | none => exact did_raise _ ha
  | some v => exact ⟨_, rfl, h2 ▸ .wrote dst v hw⟩

theorem did_packetLoad {pkt : List Byte} {k : Int} (hg : i.group = .packet) (h1 : i.length = 1)
    (hp : s.params.packet = .linux pkt) (hk : PacketAccess s i n k) : Did i s (s.packetLoad pkt n k) := by
  unfold State.packetLoad
  split
  · exact ⟨_, rfl, .halted 0 (.inr ⟨rfl, pkt, n, k, hp, hk, ‹_›⟩)⟩
  · exact ⟨_, rfl, .loadedPacket _ hg h1⟩

theorem did_packetAbs (ha : isArithmetic i = false) (hg : i.group = .packet) (h1 : i.length = 1)
    (hk : PacketAccess s i n imm.toInt) : Did i s (packetAbs n imm s) := by
  unfold packetAbs
  split
  · exact did_raise _ ha
  · exact did_withReg_late ha fun _ _ => did_packetLoad hg h1 ‹_› hk

theorem did_packetInd (ha : isArithmetic i = false) (hg : i.group = .packet) (h1 : i.length = 1)
    (hk : ∀ v, s.reg src = some v → PacketAccess s i n (low32 v + imm).toInt) : Did i s (packetInd n src imm s) := by
  unfold packetInd
  split
  · exact did_raise _ ha
  · exact did_withReg_late ha fun v hv => did_withReg_late ha fun _ _ => did_packetLoad hg h1 ‹_› (hk v hv)

theorem did_withRegs {rs : List Reg} {k : List Word → StepResult} (ha : isArithmetic i = false)
    (h : ∀ vs, rs.map s.reg = vs.map some → Did i s (k vs)) : Did i s (s.withRegs rs k) := by
  induction rs generalizing k with
  | nil => exact h [] rfl
  | cons r rest ih => exact did_withReg_late ha fun v hv => ih fun vs hvs => h (v :: vs) (by simp [hv, hvs])

theorem did_callHelper {table : HelperTable} {id : Word32} (ha : isArithmetic i = false)
    (hi : (i = .jmpCallHelper id ∧ table = .static) ∨ (i = .jmpCallBtf id ∧ table = .btf)) :
    Did i s (s.callHelper table id) := by
  unfold State.callHelper
  split
  · exact did_raise _ ha
  · next hp hl =>
    refine did_withRegs ha fun args hargs => ?_
    split
    · exact did_raise _ ha
    · next r0 writes hrun =>
      have mem_drew : ∀ {c : Prop} [Decidable c], (if c then s.drew else s).mem = s.mem := by
        intro c _
        split <;> rfl
      refine ⟨_, rfl, ?_⟩
      simp only [mem_drew]
      exact .helped table id hi _ r0 writes ⟨hp, args, hl, hargs, hrun, rfl⟩

end forms

theorem did_callLocal (imm : Word32) (s : State) : Did (.jmpCallLocal imm) s (execJmpCallLocal imm s) := by
  unfold execJmpCallLocal
  split
  · exact did_raise _ (not_arithmetic 0x85#8 rfl rfl rfl)
  · exact did_checkTarget (not_arithmetic 0x85#8 rfl rfl rfl) fun t h h2 => ⟨_, rfl, .entered imm t rfl (by omega) h h2⟩

theorem did_exit (s : State) : Did .jmpExit s (execJmpExit s) := by
  unfold execJmpExit
  split
  · exact did_withReg_late (not_arithmetic 0x95#8 rfl rfl rfl) fun v hv => ⟨_, rfl, .halted v (.inl ⟨rfl, ‹_›, hv⟩)⟩
  · exact ⟨_, rfl, .left _ _ rfl ‹_›⟩

/-! ### Every instruction -/

/-- What every instruction can do from every state. -/
theorem exec_effect (i : Instr) (s : State) : Did i s (exec i s) :=
  match i with
  | .aluAddK _ _ => did_alu32K rfl rfl rfl
  | .aluAddX _ _ => did_alu32X rfl rfl rfl
  | .alu64AddK _ _ => did_alu64K rfl rfl rfl
  | .alu64AddX _ _ => did_alu64X rfl rfl rfl
  | .aluSubK _ _ => did_alu32K rfl rfl rfl
  | .aluSubX _ _ => did_alu32X rfl rfl rfl
  | .alu64SubK _ _ => did_alu64K rfl rfl rfl
  | .alu64SubX _ _ => did_alu64X rfl rfl rfl
  | .aluMulK _ _ => did_alu32K rfl rfl rfl
  | .aluMulX _ _ => did_alu32X rfl rfl rfl
  | .alu64MulK _ _ => did_alu64K rfl rfl rfl
  | .alu64MulX _ _ => did_alu64X rfl rfl rfl
  | .aluDivK _ _ => did_alu32K rfl rfl rfl
  | .aluDivX _ _ => did_alu32X rfl rfl rfl
  | .alu64DivK _ _ => did_alu64K rfl rfl rfl
  | .alu64DivX _ _ => did_alu64X rfl rfl rfl
  | .aluSdivK _ _ => did_sdiv32K rfl rfl rfl
  | .aluSdivX _ _ => did_sdiv32X rfl rfl rfl
  | .alu64SdivK _ _ => did_sdiv64K rfl rfl rfl
  | .alu64SdivX _ _ => did_sdiv64X rfl rfl rfl
  | .aluOrK _ _ => did_alu32K rfl rfl rfl
  | .aluOrX _ _ => did_alu32X rfl rfl rfl
  | .alu64OrK _ _ => did_alu64K rfl rfl rfl
  | .alu64OrX _ _ => did_alu64X rfl rfl rfl
  | .aluAndK _ _ => did_alu32K rfl rfl rfl
  | .aluAndX _ _ => did_alu32X rfl rfl rfl
  | .alu64AndK _ _ => did_alu64K rfl rfl rfl
  | .alu64AndX _ _ => did_alu64X rfl rfl rfl
  | .aluLshK _ _ => did_alu32K rfl rfl rfl
  | .aluLshX _ _ => did_alu32X rfl rfl rfl
  | .alu64LshK _ _ => did_alu64K rfl rfl rfl
  | .alu64LshX _ _ => did_alu64X rfl rfl rfl
  | .aluRshK _ _ => did_alu32K rfl rfl rfl
  | .aluRshX _ _ => did_alu32X rfl rfl rfl
  | .alu64RshK _ _ => did_alu64K rfl rfl rfl
  | .alu64RshX _ _ => did_alu64X rfl rfl rfl
  | .aluNegK _ => did_alu32Unary rfl rfl rfl
  | .alu64NegK _ => did_alu64Unary rfl rfl rfl
  | .aluModK _ _ => did_alu32K rfl rfl rfl
  | .aluModX _ _ => did_alu32X rfl rfl rfl
  | .alu64ModK _ _ => did_alu64K rfl rfl rfl
  | .alu64ModX _ _ => did_alu64X rfl rfl rfl
  | .aluSmodK _ _ => did_alu32K rfl rfl rfl
  | .aluSmodX _ _ => did_alu32X rfl rfl rfl
  | .alu64SmodK _ _ => did_alu64K rfl rfl rfl
  | .alu64SmodX _ _ => did_alu64X rfl rfl rfl
  | .aluXorK _ _ => did_alu32K rfl rfl rfl
  | .aluXorX _ _ => did_alu32X rfl rfl rfl
  | .alu64XorK _ _ => did_alu64K rfl rfl rfl
  | .alu64XorX _ _ => did_alu64X rfl rfl rfl
  | .aluMovK _ _ => did_writeNext rfl rfl
  | .aluMovX _ _ => did_moveX rfl rfl rfl
  | .alu64MovK _ _ => did_writeNext rfl rfl
  | .alu64MovX _ _ => did_moveX rfl rfl rfl
  | .aluMovsx8X _ _ => did_moveX rfl rfl rfl
  | .aluMovsx16X _ _ => did_moveX rfl rfl rfl
  | .alu64Movsx8X _ _ => did_moveX rfl rfl rfl
  | .alu64Movsx16X _ _ => did_moveX rfl rfl rfl
  | .alu64Movsx32X _ _ => did_moveX rfl rfl rfl
  | .aluArshK _ _ => did_alu32K rfl rfl rfl
  | .aluArshX _ _ => did_alu32X rfl rfl rfl
  | .alu64ArshK _ _ => did_alu64K rfl rfl rfl
  | .alu64ArshX _ _ => did_alu64X rfl rfl rfl
  | .aluEndToLe16 _ => did_swapLow rfl rfl rfl
  | .aluEndToLe32 _ => did_swapLow rfl rfl rfl
  | .aluEndToLe64 _ => did_swapLow rfl rfl rfl
  | .aluEndToBe16 _ => did_swapLow rfl rfl rfl
  | .aluEndToBe32 _ => did_swapLow rfl rfl rfl
  | .aluEndToBe64 _ => did_swapLow rfl rfl rfl
  | .alu64EndBswap16 _ => did_swapLow rfl rfl rfl
  | .alu64EndBswap32 _ => did_swapLow rfl rfl rfl
  | .alu64EndBswap64 _ => did_swapLow rfl rfl rfl
  | .jmpJa _ => did_goto (not_arithmetic 0x05#8 rfl rfl rfl)
  | .jmp32Ja _ => did_goto (not_arithmetic 0x06#8 rfl rfl rfl)
  | .jmpJeqK _ _ _ => did_jump64K (not_arithmetic 0x15#8 rfl rfl rfl) rfl rfl
  | .jmpJeqX _ _ _ => did_jump64X (not_arithmetic 0x1d#8 rfl rfl rfl) rfl rfl
  | .jmp32JeqK _ _ _ => did_jump32K (not_arithmetic 0x16#8 rfl rfl rfl) rfl rfl
  | .jmp32JeqX _ _ _ => did_jump32X (not_arithmetic 0x1e#8 rfl rfl rfl) rfl rfl
  | .jmpJgtK _ _ _ => did_jump64K (not_arithmetic 0x25#8 rfl rfl rfl) rfl rfl
  | .jmpJgtX _ _ _ => did_jump64X (not_arithmetic 0x2d#8 rfl rfl rfl) rfl rfl
  | .jmp32JgtK _ _ _ => did_jump32K (not_arithmetic 0x26#8 rfl rfl rfl) rfl rfl
  | .jmp32JgtX _ _ _ => did_jump32X (not_arithmetic 0x2e#8 rfl rfl rfl) rfl rfl
  | .jmpJgeK _ _ _ => did_jump64K (not_arithmetic 0x35#8 rfl rfl rfl) rfl rfl
  | .jmpJgeX _ _ _ => did_jump64X (not_arithmetic 0x3d#8 rfl rfl rfl) rfl rfl
  | .jmp32JgeK _ _ _ => did_jump32K (not_arithmetic 0x36#8 rfl rfl rfl) rfl rfl
  | .jmp32JgeX _ _ _ => did_jump32X (not_arithmetic 0x3e#8 rfl rfl rfl) rfl rfl
  | .jmpJsetK _ _ _ => did_jump64K (not_arithmetic 0x45#8 rfl rfl rfl) rfl rfl
  | .jmpJsetX _ _ _ => did_jump64X (not_arithmetic 0x4d#8 rfl rfl rfl) rfl rfl
  | .jmp32JsetK _ _ _ => did_jump32K (not_arithmetic 0x46#8 rfl rfl rfl) rfl rfl
  | .jmp32JsetX _ _ _ => did_jump32X (not_arithmetic 0x4e#8 rfl rfl rfl) rfl rfl
  | .jmpJneK _ _ _ => did_jump64K (not_arithmetic 0x55#8 rfl rfl rfl) rfl rfl
  | .jmpJneX _ _ _ => did_jump64X (not_arithmetic 0x5d#8 rfl rfl rfl) rfl rfl
  | .jmp32JneK _ _ _ => did_jump32K (not_arithmetic 0x56#8 rfl rfl rfl) rfl rfl
  | .jmp32JneX _ _ _ => did_jump32X (not_arithmetic 0x5e#8 rfl rfl rfl) rfl rfl
  | .jmpJsgtK _ _ _ => did_jump64K (not_arithmetic 0x65#8 rfl rfl rfl) rfl rfl
  | .jmpJsgtX _ _ _ => did_jump64X (not_arithmetic 0x6d#8 rfl rfl rfl) rfl rfl
  | .jmp32JsgtK _ _ _ => did_jump32K (not_arithmetic 0x66#8 rfl rfl rfl) rfl rfl
  | .jmp32JsgtX _ _ _ => did_jump32X (not_arithmetic 0x6e#8 rfl rfl rfl) rfl rfl
  | .jmpJsgeK _ _ _ => did_jump64K (not_arithmetic 0x75#8 rfl rfl rfl) rfl rfl
  | .jmpJsgeX _ _ _ => did_jump64X (not_arithmetic 0x7d#8 rfl rfl rfl) rfl rfl
  | .jmp32JsgeK _ _ _ => did_jump32K (not_arithmetic 0x76#8 rfl rfl rfl) rfl rfl
  | .jmp32JsgeX _ _ _ => did_jump32X (not_arithmetic 0x7e#8 rfl rfl rfl) rfl rfl
  | .jmpJltK _ _ _ => did_jump64K (not_arithmetic 0xa5#8 rfl rfl rfl) rfl rfl
  | .jmpJltX _ _ _ => did_jump64X (not_arithmetic 0xad#8 rfl rfl rfl) rfl rfl
  | .jmp32JltK _ _ _ => did_jump32K (not_arithmetic 0xa6#8 rfl rfl rfl) rfl rfl
  | .jmp32JltX _ _ _ => did_jump32X (not_arithmetic 0xae#8 rfl rfl rfl) rfl rfl
  | .jmpJleK _ _ _ => did_jump64K (not_arithmetic 0xb5#8 rfl rfl rfl) rfl rfl
  | .jmpJleX _ _ _ => did_jump64X (not_arithmetic 0xbd#8 rfl rfl rfl) rfl rfl
  | .jmp32JleK _ _ _ => did_jump32K (not_arithmetic 0xb6#8 rfl rfl rfl) rfl rfl
  | .jmp32JleX _ _ _ => did_jump32X (not_arithmetic 0xbe#8 rfl rfl rfl) rfl rfl
  | .jmpJsltK _ _ _ => did_jump64K (not_arithmetic 0xc5#8 rfl rfl rfl) rfl rfl
  | .jmpJsltX _ _ _ => did_jump64X (not_arithmetic 0xcd#8 rfl rfl rfl) rfl rfl
  | .jmp32JsltK _ _ _ => did_jump32K (not_arithmetic 0xc6#8 rfl rfl rfl) rfl rfl
  | .jmp32JsltX _ _ _ => did_jump32X (not_arithmetic 0xce#8 rfl rfl rfl) rfl rfl
  | .jmpJsleK _ _ _ => did_jump64K (not_arithmetic 0xd5#8 rfl rfl rfl) rfl rfl
  | .jmpJsleX _ _ _ => did_jump64X (not_arithmetic 0xdd#8 rfl rfl rfl) rfl rfl
  | .jmp32JsleK _ _ _ => did_jump32K (not_arithmetic 0xd6#8 rfl rfl rfl) rfl rfl
  | .jmp32JsleX _ _ _ => did_jump32X (not_arithmetic 0xde#8 rfl rfl rfl) rfl rfl
  | .jmpCallHelper _ => did_callHelper (not_arithmetic 0x85#8 rfl rfl rfl) (.inl ⟨rfl, rfl⟩)
  | .jmpCallLocal imm => did_callLocal imm s
  | .jmpCallBtf _ => did_callHelper (not_arithmetic 0x85#8 rfl rfl rfl) (.inr ⟨rfl, rfl⟩)
  | .jmpExit => did_exit s
  | .ldxMemW _ _ _ => did_loadForm (not_arithmetic 0x61#8 rfl rfl rfl) rfl rfl rfl
  | .ldxMemH _ _ _ => did_loadForm (not_arithmetic 0x69#8 rfl rfl rfl) rfl rfl rfl
  | .ldxMemB _ _ _ => did_loadForm (not_arithmetic 0x71#8 rfl rfl rfl) rfl rfl rfl
  | .ldxMemDw _ _ _ => did_loadForm (not_arithmetic 0x79#8 rfl rfl rfl) rfl rfl rfl
  | .ldxMemsxW _ _ _ => did_loadForm (not_arithmetic 0x81#8 rfl rfl rfl) rfl rfl rfl
  | .ldxMemsxH _ _ _ => did_loadForm (not_arithmetic 0x89#8 rfl rfl rfl) rfl rfl rfl
  | .ldxMemsxB _ _ _ => did_loadForm (not_arithmetic 0x91#8 rfl rfl rfl) rfl rfl rfl
  | .stMemW _ _ _ => did_storeImm (not_arithmetic 0x62#8 rfl rfl rfl) (.intro 0x62#8) rfl
  | .stMemH _ _ _ => did_storeImm (not_arithmetic 0x6a#8 rfl rfl rfl) (.intro 0x6a#8) rfl
  | .stMemB _ _ _ => did_storeImm (not_arithmetic 0x72#8 rfl rfl rfl) (.intro 0x72#8) rfl
  | .stMemDw _ _ _ => did_storeImm (not_arithmetic 0x7a#8 rfl rfl rfl) (.intro 0x7a#8) rfl
  | .stxMemW _ _ _ => did_storeReg (not_arithmetic 0x63#8 rfl rfl rfl) (.intro 0x63#8) rfl
  | .stxMemH _ _ _ => did_storeReg (not_arithmetic 0x6b#8 rfl rfl rfl) (.intro 0x6b#8) rfl
  | .stxMemB _ _ _ => did_storeReg (not_arithmetic 0x73#8 rfl rfl rfl) (.intro 0x73#8) rfl
  | .stxMemDw _ _ _ => did_storeReg (not_arithmetic 0x7b#8 rfl rfl rfl) (.intro 0x7b#8) rfl
  | .stxAtomicWAdd _ _ _ => did_atomicForm (not_arithmetic 0xc3#8 rfl rfl rfl) (.intro 0xc3#8) rfl
  | .stxAtomicDwAdd _ _ _ => did_atomicForm (not_arithmetic 0xdb#8 rfl rfl rfl) (.intro 0xdb#8) rfl
  | .stxAtomicWOr _ _ _ => did_atomicForm (not_arithmetic 0xc3#8 rfl rfl rfl) (.intro 0xc3#8) rfl
  | .stxAtomicDwOr _ _ _ => did_atomicForm (not_arithmetic 0xdb#8 rfl rfl rfl) (.intro 0xdb#8) rfl
  | .stxAtomicWAnd _ _ _ => did_atomicForm (not_arithmetic 0xc3#8 rfl rfl rfl) (.intro 0xc3#8) rfl
  | .stxAtomicDwAnd _ _ _ => did_atomicForm (not_arithmetic 0xdb#8 rfl rfl rfl) (.intro 0xdb#8) rfl
  | .stxAtomicWXor _ _ _ => did_atomicForm (not_arithmetic 0xc3#8 rfl rfl rfl) (.intro 0xc3#8) rfl
  | .stxAtomicDwXor _ _ _ => did_atomicForm (not_arithmetic 0xdb#8 rfl rfl rfl) (.intro 0xdb#8) rfl
  | .stxAtomicWAddFetch _ _ _ => did_atomicFetchForm (not_arithmetic 0xc3#8 rfl rfl rfl) (.intro 0xc3#8) rfl rfl
  | .stxAtomicDwAddFetch _ _ _ => did_atomicFetchForm (not_arithmetic 0xdb#8 rfl rfl rfl) (.intro 0xdb#8) rfl rfl
  | .stxAtomicWOrFetch _ _ _ => did_atomicFetchForm (not_arithmetic 0xc3#8 rfl rfl rfl) (.intro 0xc3#8) rfl rfl
  | .stxAtomicDwOrFetch _ _ _ => did_atomicFetchForm (not_arithmetic 0xdb#8 rfl rfl rfl) (.intro 0xdb#8) rfl rfl
  | .stxAtomicWAndFetch _ _ _ => did_atomicFetchForm (not_arithmetic 0xc3#8 rfl rfl rfl) (.intro 0xc3#8) rfl rfl
  | .stxAtomicDwAndFetch _ _ _ => did_atomicFetchForm (not_arithmetic 0xdb#8 rfl rfl rfl) (.intro 0xdb#8) rfl rfl
  | .stxAtomicWXorFetch _ _ _ => did_atomicFetchForm (not_arithmetic 0xc3#8 rfl rfl rfl) (.intro 0xc3#8) rfl rfl
  | .stxAtomicDwXorFetch _ _ _ => did_atomicFetchForm (not_arithmetic 0xdb#8 rfl rfl rfl) (.intro 0xdb#8) rfl rfl
  | .stxAtomicWXchg _ _ _ => did_atomicFetchForm (not_arithmetic 0xc3#8 rfl rfl rfl) (.intro 0xc3#8) rfl rfl
  | .stxAtomicDwXchg _ _ _ => did_atomicFetchForm (not_arithmetic 0xdb#8 rfl rfl rfl) (.intro 0xdb#8) rfl rfl
  | .stxAtomicWCmpxchg _ _ _ => did_cmpxchgForm (not_arithmetic 0xc3#8 rfl rfl rfl) (.intro 0xc3#8) rfl ⟨_, _, _, .inl rfl⟩
  | .stxAtomicDwCmpxchg _ _ _ => did_cmpxchgForm (not_arithmetic 0xdb#8 rfl rfl rfl) (.intro 0xdb#8) rfl ⟨_, _, _, .inr rfl⟩
  | .ldImm64 dst imm nextImm =>
    show Did _ s (s.writeWide dst (some (nextImm ++ imm))) from did_writeWide (not_arithmetic 0x18#8 rfl rfl rfl) rfl rfl
  | .ldMapByFd _ _ => did_writeWide (not_arithmetic 0x18#8 rfl rfl rfl) rfl rfl
  | .ldMapValByFd _ _ _ => did_writeWide (not_arithmetic 0x18#8 rfl rfl rfl) rfl rfl
  | .ldVarAddr _ _ => did_writeWide (not_arithmetic 0x18#8 rfl rfl rfl) rfl rfl
  | .ldCodeAddr _ _ => did_writeWide (not_arithmetic 0x18#8 rfl rfl rfl) rfl rfl
  | .ldMapByIdx _ _ => did_writeWide (not_arithmetic 0x18#8 rfl rfl rfl) rfl rfl
  | .ldMapValByIdx _ _ _ => did_writeWide (not_arithmetic 0x18#8 rfl rfl rfl) rfl rfl
  | .ldAbsW _ => did_packetAbs (not_arithmetic 0x20#8 rfl rfl rfl) rfl rfl (.absW _)
  | .ldAbsH _ => did_packetAbs (not_arithmetic 0x28#8 rfl rfl rfl) rfl rfl (.absH _)
  | .ldAbsB _ => did_packetAbs (not_arithmetic 0x30#8 rfl rfl rfl) rfl rfl (.absB _)
  | .ldIndW _ _ => did_packetInd (not_arithmetic 0x40#8 rfl rfl rfl) rfl rfl fun _ h => .indW _ _ _ h
  | .ldIndH _ _ => did_packetInd (not_arithmetic 0x48#8 rfl rfl rfl) rfl rfl fun _ h => .indH _ _ _ h
  | .ldIndB _ _ => did_packetInd (not_arithmetic 0x50#8 rfl rfl rfl) rfl rfl fun _ h => .indB _ _ _ h

end Sys2Proof.Machine
end

