-- ==== Sys2Proof/Laws/PerInstr.lean ====
section
/-!
SUPPORT. Laws/PerInstr.lean: one lemma per instruction: the fields that the encoder writes decode to the instruction
they were written for, with every operand at every value (rules R103, R113, R129, R130).
-/

namespace Sys2Proof.Laws

/-- Decoding the fields of an instruction, with those of its second slot where it has one, gives the instruction. -/
def FieldsRoundTrip.Statement (i : Instr) : Prop :=
  ∀ second, (∀ n, i.nextImm = some n → second = some (secondFields n)) → decodeFields i.fields second = .ok i

theorem FieldsRoundTrip.aluAddK (dst : Reg) (imm : BitVec 32) : FieldsRoundTrip.Statement (.aluAddK dst imm) := fun _ _ =>
  (decodeFields_alu _ _ 0x04#8 rfl rfl).trans (useReg_num dst _)

theorem FieldsRoundTrip.aluAddX (dst : Reg) (src : Reg) : FieldsRoundTrip.Statement (.aluAddX dst src) := fun _ _ =>
  (decodeFields_alu _ _ 0x0c#8 rfl rfl).trans ((useReg_num dst _).trans (useReg_num src _))

theorem FieldsRoundTrip.alu64AddK (dst : Reg) (imm : BitVec 32) : FieldsRoundTrip.Statement (.alu64AddK dst imm) := fun _ _ =>
  (decodeFields_alu64 _ _ 0x07#8 rfl rfl).trans (useReg_num dst _)

theorem FieldsRoundTrip.alu64AddX (dst : Reg) (src : Reg) : FieldsRoundTrip.Statement (.alu64AddX dst src) := fun _ _ =>
  (decodeFields_alu64 _ _ 0x0f#8 rfl rfl).trans ((useReg_num dst _).trans (useReg_num src _))

theorem FieldsRoundTrip.aluSubK (dst : Reg) (imm : BitVec 32) : FieldsRoundTrip.Statement (.aluSubK dst imm) := fun _ _ =>
  (decodeFields_alu _ _ 0x14#8 rfl rfl).trans (useReg_num dst _)

theorem FieldsRoundTrip.aluSubX (dst : Reg) (src : Reg) : FieldsRoundTrip.Statement (.aluSubX dst src) := fun _ _ =>
  (decodeFields_alu _ _ 0x1c#8 rfl rfl).trans ((useReg_num dst _).trans (useReg_num src _))

theorem FieldsRoundTrip.alu64SubK (dst : Reg) (imm : BitVec 32) : FieldsRoundTrip.Statement (.alu64SubK dst imm) := fun _ _ =>
  (decodeFields_alu64 _ _ 0x17#8 rfl rfl).trans (useReg_num dst _)

theorem FieldsRoundTrip.alu64SubX (dst : Reg) (src : Reg) : FieldsRoundTrip.Statement (.alu64SubX dst src) := fun _ _ =>
  (decodeFields_alu64 _ _ 0x1f#8 rfl rfl).trans ((useReg_num dst _).trans (useReg_num src _))

theorem FieldsRoundTrip.aluMulK (dst : Reg) (imm : BitVec 32) : FieldsRoundTrip.Statement (.aluMulK dst imm) := fun _ _ =>
  (decodeFields_alu _ _ 0x24#8 rfl rfl).trans (useReg_num dst _)

theorem FieldsRoundTrip.aluMulX (dst : Reg) (src : Reg) : FieldsRoundTrip.Statement (.aluMulX dst src) := fun _ _ =>
  (decodeFields_alu _ _ 0x2c#8 rfl rfl).trans ((useReg_num dst _).trans (useReg_num src _))

theorem FieldsRoundTrip.alu64MulK (dst : Reg) (imm : BitVec 32) : FieldsRoundTrip.Statement (.alu64MulK dst imm) := fun _ _ =>
  (decodeFields_alu64 _ _ 0x27#8 rfl rfl).trans (useReg_num dst _)

theorem FieldsRoundTrip.alu64MulX (dst : Reg) (src : Reg) : FieldsRoundTrip.Statement (.alu64MulX dst src) := fun _ _ =>
  (decodeFields_alu64 _ _ 0x2f#8 rfl rfl).trans ((useReg_num dst _).trans (useReg_num src _))

theorem FieldsRoundTrip.aluDivK (dst : Reg) (imm : BitVec 32) : FieldsRoundTrip.Statement (.aluDivK dst imm) := fun _ _ =>
  (decodeFields_alu _ _ 0x34#8 rfl rfl).trans (useReg_num dst _)

theorem FieldsRoundTrip.aluDivX (dst : Reg) (src : Reg) : FieldsRoundTrip.Statement (.aluDivX dst src) := fun _ _ =>
  (decodeFields_alu _ _ 0x3c#8 rfl rfl).trans ((useReg_num dst _).trans (useReg_num src _))

theorem FieldsRoundTrip.alu64DivK (dst : Reg) (imm : BitVec 32) : FieldsRoundTrip.Statement (.alu64DivK dst imm) := fun _ _ =>
  (decodeFields_alu64 _ _ 0x37#8 rfl rfl).trans (useReg_num dst _)

theorem FieldsRoundTrip.alu64DivX (dst : Reg) (src : Reg) : FieldsRoundTrip.Statement (.alu64DivX dst src) := fun _ _ =>
  (decodeFields_alu64 _ _ 0x3f#8 rfl rfl).trans ((useReg_num dst _).trans (useReg_num src _))

theorem FieldsRoundTrip.aluSdivK (dst : Reg) (imm : BitVec 32) : FieldsRoundTrip.Statement (.aluSdivK dst imm) := fun _ _ =>
  (decodeFields_alu _ _ 0x34#8 rfl rfl).trans (useReg_num dst _)

theorem FieldsRoundTrip.aluSdivX (dst : Reg) (src : Reg) : FieldsRoundTrip.Statement (.aluSdivX dst src) := fun _ _ =>
  (decodeFields_alu _ _ 0x3c#8 rfl rfl).trans ((useReg_num dst _).trans (useReg_num src _))

theorem FieldsRoundTrip.alu64SdivK (dst : Reg) (imm : BitVec 32) : FieldsRoundTrip.Statement (.alu64SdivK dst imm) := fun _ _ =>
  (decodeFields_alu64 _ _ 0x37#8 rfl rfl).trans (useReg_num dst _)

theorem FieldsRoundTrip.alu64SdivX (dst : Reg) (src : Reg) : FieldsRoundTrip.Statement (.alu64SdivX dst src) := fun _ _ =>
  (decodeFields_alu64 _ _ 0x3f#8 rfl rfl).trans ((useReg_num dst _).trans (useReg_num src _))

theorem FieldsRoundTrip.aluOrK (dst : Reg) (imm : BitVec 32) : FieldsRoundTrip.Statement (.aluOrK dst imm) := fun _ _ =>
  (decodeFields_alu _ _ 0x44#8 rfl rfl).trans (useReg_num dst _)

theorem FieldsRoundTrip.aluOrX (dst : Reg) (src : Reg) : FieldsRoundTrip.Statement (.aluOrX dst src) := fun _ _ =>
  (decodeFields_alu _ _ 0x4c#8 rfl rfl).trans ((useReg_num dst _).trans (useReg_num src _))

theorem FieldsRoundTrip.alu64OrK (dst : Reg) (imm : BitVec 32) : FieldsRoundTrip.Statement (.alu64OrK dst imm) := fun _ _ =>
  (decodeFields_alu64 _ _ 0x47#8 rfl rfl).trans (useReg_num dst _)

theorem FieldsRoundTrip.alu64OrX (dst : Reg) (src : Reg) : FieldsRoundTrip.Statement (.alu64OrX dst src) := fun _ _ =>
  (decodeFields_alu64 _ _ 0x4f#8 rfl rfl).trans ((useReg_num dst _).trans (useReg_num src _))

theorem FieldsRoundTrip.aluAndK (dst : Reg) (imm : BitVec 32) : FieldsRoundTrip.Statement (.aluAndK dst imm) := fun _ _ =>
  (decodeFields_alu _ _ 0x54#8 rfl rfl).trans (useReg_num dst _)

theorem FieldsRoundTrip.aluAndX (dst : Reg) (src : Reg) : FieldsRoundTrip.Statement (.aluAndX dst src) := fun _ _ =>
  (decodeFields_alu _ _ 0x5c#8 rfl rfl).trans ((useReg_num dst _).trans (useReg_num src _))

theorem FieldsRoundTrip.alu64AndK (dst : Reg) (imm : BitVec 32) : FieldsRoundTrip.Statement (.alu64AndK dst imm) := fun _ _ =>
  (decodeFields_alu64 _ _ 0x57#8 rfl rfl).trans (useReg_num dst _)

theorem FieldsRoundTrip.alu64AndX (dst : Reg) (src : Reg) : FieldsRoundTrip.Statement (.alu64AndX dst src) := fun _ _ =>
  (decodeFields_alu64 _ _ 0x5f#8 rfl rfl).trans ((useReg_num dst _).trans (useReg_num src _))

theorem FieldsRoundTrip.aluLshK (dst : Reg) (imm : BitVec 32) : FieldsRoundTrip.Statement (.aluLshK dst imm) := fun _ _ =>
  (decodeFields_alu _ _ 0x64#8 rfl rfl).trans (useReg_num dst _)

theorem FieldsRoundTrip.aluLshX (dst : Reg) (src : Reg) : FieldsRoundTrip.Statement (.aluLshX dst src) := fun _ _ =>
  (decodeFields_alu _ _ 0x6c#8 rfl rfl).trans ((useReg_num dst _).trans (useReg_num src _))

theorem FieldsRoundTrip.alu64LshK (dst : Reg) (imm : BitVec 32) : FieldsRoundTrip.Statement (.alu64LshK dst imm) := fun _ _ =>
  (decodeFields_alu64 _ _ 0x67#8 rfl rfl).trans (useReg_num dst _)

theorem FieldsRoundTrip.alu64LshX (dst : Reg) (src : Reg) : FieldsRoundTrip.Statement (.alu64LshX dst src) := fun _ _ =>
  (decodeFields_alu64 _ _ 0x6f#8 rfl rfl).trans ((useReg_num dst _).trans (useReg_num src _))

theorem FieldsRoundTrip.aluRshK (dst : Reg) (imm : BitVec 32) : FieldsRoundTrip.Statement (.aluRshK dst imm) := fun _ _ =>
  (decodeFields_alu _ _ 0x74#8 rfl rfl).trans (useReg_num dst _)

theorem FieldsRoundTrip.aluRshX (dst : Reg) (src : Reg) : FieldsRoundTrip.Statement (.aluRshX dst src) := fun _ _ =>
  (decodeFields_alu _ _ 0x7c#8 rfl rfl).trans ((useReg_num dst _).trans (useReg_num src _))

theorem FieldsRoundTrip.alu64RshK (dst : Reg) (imm : BitVec 32) : FieldsRoundTrip.Statement (.alu64RshK dst imm) := fun _ _ =>
  (decodeFields_alu64 _ _ 0x77#8 rfl rfl).trans (useReg_num dst _)

theorem FieldsRoundTrip.alu64RshX (dst : Reg) (src : Reg) : FieldsRoundTrip.Statement (.alu64RshX dst src) := fun _ _ =>
  (decodeFields_alu64 _ _ 0x7f#8 rfl rfl).trans ((useReg_num dst _).trans (useReg_num src _))

theorem FieldsRoundTrip.aluNegK (dst : Reg) : FieldsRoundTrip.Statement (.aluNegK dst) := fun _ _ =>
  (decodeFields_alu _ _ 0x84#8 rfl rfl).trans (useReg_num dst _)

theorem FieldsRoundTrip.alu64NegK (dst : Reg) : FieldsRoundTrip.Statement (.alu64NegK dst) := fun _ _ =>
  (decodeFields_alu64 _ _ 0x87#8 rfl rfl).trans (useReg_num dst _)

theorem FieldsRoundTrip.aluModK (dst : Reg) (imm : BitVec 32) : FieldsRoundTrip.Statement (.aluModK dst imm) := fun _ _ =>
  (decodeFields_alu _ _ 0x94#8 rfl rfl).trans (useReg_num dst _)

theorem FieldsRoundTrip.aluModX (dst : Reg) (src : Reg) : FieldsRoundTrip.Statement (.aluModX dst src) := fun _ _ =>
  (decodeFields_alu _ _ 0x9c#8 rfl rfl).trans ((useReg_num dst _).trans (useReg_num src _))

theorem FieldsRoundTrip.alu64ModK (dst : Reg) (imm : BitVec 32) : FieldsRoundTrip.Statement (.alu64ModK dst imm) := fun _ _ =>
  (decodeFields_alu64 _ _ 0x97#8 rfl rfl).trans (useReg_num dst _)

theorem FieldsRoundTrip.alu64ModX (dst : Reg) (src : Reg) : FieldsRoundTrip.Statement (.alu64ModX dst src) := fun _ _ =>
  (decodeFields_alu64 _ _ 0x9f#8 rfl rfl).trans ((useReg_num dst _).trans (useReg_num src _))

theorem FieldsRoundTrip.aluSmodK (dst : Reg) (imm : BitVec 32) : FieldsRoundTrip.Statement (.aluSmodK dst imm) := fun _ _ =>
  (decodeFields_alu _ _ 0x94#8 rfl rfl).trans (useReg_num dst _)

theorem FieldsRoundTrip.aluSmodX (dst : Reg) (src : Reg) : FieldsRoundTrip.Statement (.aluSmodX dst src) := fun _ _ =>
  (decodeFields_alu _ _ 0x9c#8 rfl rfl).trans ((useReg_num dst _).trans (useReg_num src _))

theorem FieldsRoundTrip.alu64SmodK (dst : Reg) (imm : BitVec 32) : FieldsRoundTrip.Statement (.alu64SmodK dst imm) := fun _ _ =>
  (decodeFields_alu64 _ _ 0x97#8 rfl rfl).trans (useReg_num dst _)

theorem FieldsRoundTrip.alu64SmodX (dst : Reg) (src : Reg) : FieldsRoundTrip.Statement (.alu64SmodX dst src) := fun _ _ =>
  (decodeFields_alu64 _ _ 0x9f#8 rfl rfl).trans ((useReg_num dst _).trans (useReg_num src _))

theorem FieldsRoundTrip.aluXorK (dst : Reg) (imm : BitVec 32) : FieldsRoundTrip.Statement (.aluXorK dst imm) := fun _ _ =>
  (decodeFields_alu _ _ 0xa4#8 rfl rfl).trans (useReg_num dst _)

theorem FieldsRoundTrip.aluXorX (dst : Reg) (src : Reg) : FieldsRoundTrip.Statement (.aluXorX dst src) := fun _ _ =>
  (decodeFields_alu _ _ 0xac#8 rfl rfl).trans ((useReg_num dst _).trans (useReg_num src _))

theorem FieldsRoundTrip.alu64XorK (dst : Reg) (imm : BitVec 32) : FieldsRoundTrip.Statement (.alu64XorK dst imm) := fun _ _ =>
  (decodeFields_alu64 _ _ 0xa7#8 rfl rfl).trans (useReg_num dst _)

theorem FieldsRoundTrip.alu64XorX (dst : Reg) (src : Reg) : FieldsRoundTrip.Statement (.alu64XorX dst src) := fun _ _ =>
  (decodeFields_alu64 _ _ 0xaf#8 rfl rfl).trans ((useReg_num dst _).trans (useReg_num src _))

theorem FieldsRoundTrip.aluMovK (dst : Reg) (imm : BitVec 32) : FieldsRoundTrip.Statement (.aluMovK dst imm) := fun _ _ =>
  (decodeFields_alu _ _ 0xb4#8 rfl rfl).trans (useReg_num dst _)

theorem FieldsRoundTrip.aluMovX (dst : Reg) (src : Reg) : FieldsRoundTrip.Statement (.aluMovX dst src) := fun _ _ =>
  (decodeFields_alu _ _ 0xbc#8 rfl rfl).trans ((useReg_num dst _).trans (useReg_num src _))

theorem FieldsRoundTrip.alu64MovK (dst : Reg) (imm : BitVec 32) : FieldsRoundTrip.Statement (.alu64MovK dst imm) := fun _ _ =>
  (decodeFields_alu64 _ _ 0xb7#8 rfl rfl).trans (useReg_num dst _)

theorem FieldsRoundTrip.alu64MovX (dst : Reg) (src : Reg) : FieldsRoundTrip.Statement (.alu64MovX dst src) := fun _ _ =>
  (decodeFields_alu64 _ _ 0xbf#8 rfl rfl).trans ((useReg_num dst _).trans (useReg_num src _))

theorem FieldsRoundTrip.aluMovsx8X (dst : Reg) (src : Reg) : FieldsRoundTrip.Statement (.aluMovsx8X dst src) := fun _ _ =>
  (decodeFields_alu _ _ 0xbc#8 rfl rfl).trans ((useReg_num dst _).trans (useReg_num src _))

theorem FieldsRoundTrip.aluMovsx16X (dst : Reg) (src : Reg) : FieldsRoundTrip.Statement (.aluMovsx16X dst src) := fun _ _ =>
  (decodeFields_alu _ _ 0xbc#8 rfl rfl).trans ((useReg_num dst _).trans (useReg_num src _))

theorem FieldsRoundTrip.alu64Movsx8X (dst : Reg) (src : Reg) : FieldsRoundTrip.Statement (.alu64Movsx8X dst src) := fun _ _ =>
  (decodeFields_alu64 _ _ 0xbf#8 rfl rfl).trans ((useReg_num dst _).trans (useReg_num src _))

theorem FieldsRoundTrip.alu64Movsx16X (dst : Reg) (src : Reg) : FieldsRoundTrip.Statement (.alu64Movsx16X dst src) := fun _ _ =>
  (decodeFields_alu64 _ _ 0xbf#8 rfl rfl).trans ((useReg_num dst _).trans (useReg_num src _))

theorem FieldsRoundTrip.alu64Movsx32X (dst : Reg) (src : Reg) : FieldsRoundTrip.Statement (.alu64Movsx32X dst src) := fun _ _ =>
  (decodeFields_alu64 _ _ 0xbf#8 rfl rfl).trans ((useReg_num dst _).trans (useReg_num src _))

theorem FieldsRoundTrip.aluArshK (dst : Reg) (imm : BitVec 32) : FieldsRoundTrip.Statement (.aluArshK dst imm) := fun _ _ =>
  (decodeFields_alu _ _ 0xc4#8 rfl rfl).trans (useReg_num dst _)

theorem FieldsRoundTrip.aluArshX (dst : Reg) (src : Reg) : FieldsRoundTrip.Statement (.aluArshX dst src) := fun _ _ =>
  (decodeFields_alu _ _ 0xcc#8 rfl rfl).trans ((useReg_num dst _).trans (useReg_num src _))

theorem FieldsRoundTrip.alu64ArshK (dst : Reg) (imm : BitVec 32) : FieldsRoundTrip.Statement (.alu64ArshK dst imm) := fun _ _ =>
  (decodeFields_alu64 _ _ 0xc7#8 rfl rfl).trans (useReg_num dst _)

theorem FieldsRoundTrip.alu64ArshX (dst : Reg) (src : Reg) : FieldsRoundTrip.Statement (.alu64ArshX dst src) := fun _ _ =>
  (decodeFields_alu64 _ _ 0xcf#8 rfl rfl).trans ((useReg_num dst _).trans (useReg_num src _))

theorem FieldsRoundTrip.aluEndToLe16 (dst : Reg) : FieldsRoundTrip.Statement (.aluEndToLe16 dst) := fun _ _ =>
  (decodeFields_alu _ _ 0xd4#8 rfl rfl).trans (useReg_num dst _)

theorem FieldsRoundTrip.aluEndToLe32 (dst : Reg) : FieldsRoundTrip.Statement (.aluEndToLe32 dst) := fun _ _ =>
  (decodeFields_alu _ _ 0xd4#8 rfl rfl).trans (useReg_num dst _)

theorem FieldsRoundTrip.aluEndToLe64 (dst : Reg) : FieldsRoundTrip.Statement (.aluEndToLe64 dst) := fun _ _ =>
  (decodeFields_alu _ _ 0xd4#8 rfl rfl).trans (useReg_num dst _)

theorem FieldsRoundTrip.aluEndToBe16 (dst : Reg) : FieldsRoundTrip.Statement (.aluEndToBe16 dst) := fun _ _ =>
  (decodeFields_alu _ _ 0xdc#8 rfl rfl).trans (useReg_num dst _)

theorem FieldsRoundTrip.aluEndToBe32 (dst : Reg) : FieldsRoundTrip.Statement (.aluEndToBe32 dst) := fun _ _ =>
  (decodeFields_alu _ _ 0xdc#8 rfl rfl).trans (useReg_num dst _)

theorem FieldsRoundTrip.aluEndToBe64 (dst : Reg) : FieldsRoundTrip.Statement (.aluEndToBe64 dst) := fun _ _ =>
  (decodeFields_alu _ _ 0xdc#8 rfl rfl).trans (useReg_num dst _)

theorem FieldsRoundTrip.alu64EndBswap16 (dst : Reg) : FieldsRoundTrip.Statement (.alu64EndBswap16 dst) := fun _ _ =>
  (decodeFields_alu64 _ _ 0xd7#8 rfl rfl).trans (useReg_num dst _)

theorem FieldsRoundTrip.alu64EndBswap32 (dst : Reg) : FieldsRoundTrip.Statement (.alu64EndBswap32 dst) := fun _ _ =>
  (decodeFields_alu64 _ _ 0xd7#8 rfl rfl).trans (useReg_num dst _)

theorem FieldsRoundTrip.alu64EndBswap64 (dst : Reg) : FieldsRoundTrip.Statement (.alu64EndBswap64 dst) := fun _ _ =>
  (decodeFields_alu64 _ _ 0xd7#8 rfl rfl).trans (useReg_num dst _)

theorem FieldsRoundTrip.jmpJa (off : BitVec 16) : FieldsRoundTrip.Statement (.jmpJa off) := fun _ _ =>
  (decodeFields_jmp _ _ 0x05#8 rfl rfl).trans (rfl)

theorem FieldsRoundTrip.jmp32Ja (imm : BitVec 32) : FieldsRoundTrip.Statement (.jmp32Ja imm) := fun _ _ =>
  (decodeFields_jmp32 _ _ 0x06#8 rfl rfl).trans (rfl)

theorem FieldsRoundTrip.jmpJeqK (dst : Reg) (off : BitVec 16) (imm : BitVec 32) : FieldsRoundTrip.Statement (.jmpJeqK dst off imm) := fun _ _ =>
  (decodeFields_jmp _ _ 0x15#8 rfl rfl).trans (useReg_num dst _)

theorem FieldsRoundTrip.jmpJeqX (dst : Reg) (src : Reg) (off : BitVec 16) : FieldsRoundTrip.Statement (.jmpJeqX dst src off) := fun _ _ =>
  (decodeFields_jmp _ _ 0x1d#8 rfl rfl).trans ((useReg_num dst _).trans (useReg_num src _))

theorem FieldsRoundTrip.jmp32JeqK (dst : Reg) (off : BitVec 16) (imm : BitVec 32) : FieldsRoundTrip.Statement (.jmp32JeqK dst off imm) := fun _ _ =>
  (decodeFields_jmp32 _ _ 0x16#8 rfl rfl).trans (useReg_num dst _)

theorem FieldsRoundTrip.jmp32JeqX (dst : Reg) (src : Reg) (off : BitVec 16) : FieldsRoundTrip.Statement (.jmp32JeqX dst src off) := fun _ _ =>
  (decodeFields_jmp32 _ _ 0x1e#8 rfl rfl).trans ((useReg_num dst _).trans (useReg_num src _))

theorem FieldsRoundTrip.jmpJgtK (dst : Reg) (off : BitVec 16) (imm : BitVec 32) : FieldsRoundTrip.Statement (.jmpJgtK dst off imm) := fun _ _ =>
  (decodeFields_jmp _ _ 0x25#8 rfl rfl).trans (useReg_num dst _)

theorem FieldsRoundTrip.jmpJgtX (dst : Reg) (src : Reg) (off : BitVec 16) : FieldsRoundTrip.Statement (.jmpJgtX dst src off) := fun _ _ =>
  (decodeFields_jmp _ _ 0x2d#8 rfl rfl).trans ((useReg_num dst _).trans (useReg_num src _))

theorem FieldsRoundTrip.jmp32JgtK (dst : Reg) (off : BitVec 16) (imm : BitVec 32) : FieldsRoundTrip.Statement (.jmp32JgtK dst off imm) := fun _ _ =>
  (decodeFields_jmp32 _ _ 0x26#8 rfl rfl).trans (useReg_num dst _)

theorem FieldsRoundTrip.jmp32JgtX (dst : Reg) (src : Reg) (off : BitVec 16) : FieldsRoundTrip.Statement (.jmp32JgtX dst src off) := fun _ _ =>
  (decodeFields_jmp32 _ _ 0x2e#8 rfl rfl).trans ((useReg_num dst _).trans (useReg_num src _))

theorem FieldsRoundTrip.jmpJgeK (dst : Reg) (off : BitVec 16) (imm : BitVec 32) : FieldsRoundTrip.Statement (.jmpJgeK dst off imm) := fun _ _ =>
  (decodeFields_jmp _ _ 0x35#8 rfl rfl).trans (useReg_num dst _)

theorem FieldsRoundTrip.jmpJgeX (dst : Reg) (src : Reg) (off : BitVec 16) : FieldsRoundTrip.Statement (.jmpJgeX dst src off) := fun _ _ =>
  (decodeFields_jmp _ _ 0x3d#8 rfl rfl).trans ((useReg_num dst _).trans (useReg_num src _))

theorem FieldsRoundTrip.jmp32JgeK (dst : Reg) (off : BitVec 16) (imm : BitVec 32) : FieldsRoundTrip.Statement (.jmp32JgeK dst off imm) := fun _ _ =>
  (decodeFields_jmp32 _ _ 0x36#8 rfl rfl).trans (useReg_num dst _)

theorem FieldsRoundTrip.jmp32JgeX (dst : Reg) (src : Reg) (off : BitVec 16) : FieldsRoundTrip.Statement (.jmp32JgeX dst src off) := fun _ _ =>
  (decodeFields_jmp32 _ _ 0x3e#8 rfl rfl).trans ((useReg_num dst _).trans (useReg_num src _))

theorem FieldsRoundTrip.jmpJsetK (dst : Reg) (off : BitVec 16) (imm : BitVec 32) : FieldsRoundTrip.Statement (.jmpJsetK dst off imm) := fun _ _ =>
  (decodeFields_jmp _ _ 0x45#8 rfl rfl).trans (useReg_num dst _)

theorem FieldsRoundTrip.jmpJsetX (dst : Reg) (src : Reg) (off : BitVec 16) : FieldsRoundTrip.Statement (.jmpJsetX dst src off) := fun _ _ =>
  (decodeFields_jmp _ _ 0x4d#8 rfl rfl).trans ((useReg_num dst _).trans (useReg_num src _))

theorem FieldsRoundTrip.jmp32JsetK (dst : Reg) (off : BitVec 16) (imm : BitVec 32) : FieldsRoundTrip.Statement (.jmp32JsetK dst off imm) := fun _ _ =>
  (decodeFields_jmp32 _ _ 0x46#8 rfl rfl).trans (useReg_num dst _)

theorem FieldsRoundTrip.jmp32JsetX (dst : Reg) (src : Reg) (off : BitVec 16) : FieldsRoundTrip.Statement (.jmp32JsetX dst src off) := fun _ _ =>
  (decodeFields_jmp32 _ _ 0x4e#8 rfl rfl).trans ((useReg_num dst _).trans (useReg_num src _))

theorem FieldsRoundTrip.jmpJneK (dst : Reg) (off : BitVec 16) (imm : BitVec 32) : FieldsRoundTrip.Statement (.jmpJneK dst off imm) := fun _ _ =>
  (decodeFields_jmp _ _ 0x55#8 rfl rfl).trans (useReg_num dst _)

theorem FieldsRoundTrip.jmpJneX (dst : Reg) (src : Reg) (off : BitVec 16) : FieldsRoundTrip.Statement (.jmpJneX dst src off) := fun _ _ =>
  (decodeFields_jmp _ _ 0x5d#8 rfl rfl).trans ((useReg_num dst _).trans (useReg_num src _))

theorem FieldsRoundTrip.jmp32JneK (dst : Reg) (off : BitVec 16) (imm : BitVec 32) : FieldsRoundTrip.Statement (.jmp32JneK dst off imm) := fun _ _ =>
  (decodeFields_jmp32 _ _ 0x56#8 rfl rfl).trans (useReg_num dst _)

theorem FieldsRoundTrip.jmp32JneX (dst : Reg) (src : Reg) (off : BitVec 16) : FieldsRoundTrip.Statement (.jmp32JneX dst src off) := fun _ _ =>
  (decodeFields_jmp32 _ _ 0x5e#8 rfl rfl).trans ((useReg_num dst _).trans (useReg_num src _))

theorem FieldsRoundTrip.jmpJsgtK (dst : Reg) (off : BitVec 16) (imm : BitVec 32) : FieldsRoundTrip.Statement (.jmpJsgtK dst off imm) := fun _ _ =>
  (decodeFields_jmp _ _ 0x65#8 rfl rfl).trans (useReg_num dst _)

theorem FieldsRoundTrip.jmpJsgtX (dst : Reg) (src : Reg) (off : BitVec 16) : FieldsRoundTrip.Statement (.jmpJsgtX dst src off) := fun _ _ =>
  (decodeFields_jmp _ _ 0x6d#8 rfl rfl).trans ((useReg_num dst _).trans (useReg_num src _))

theorem FieldsRoundTrip.jmp32JsgtK (dst : Reg) (off : BitVec 16) (imm : BitVec 32) : FieldsRoundTrip.Statement (.jmp32JsgtK dst off imm) := fun _ _ =>
  (decodeFields_jmp32 _ _ 0x66#8 rfl rfl).trans (useReg_num dst _)

theorem FieldsRoundTrip.jmp32JsgtX (dst : Reg) (src : Reg) (off : BitVec 16) : FieldsRoundTrip.Statement (.jmp32JsgtX dst src off) := fun _ _ =>
  (decodeFields_jmp32 _ _ 0x6e#8 rfl rfl).trans ((useReg_num dst _).trans (useReg_num src _))

theorem FieldsRoundTrip.jmpJsgeK (dst : Reg) (off : BitVec 16) (imm : BitVec 32) : FieldsRoundTrip.Statement (.jmpJsgeK dst off imm) := fun _ _ =>
  (decodeFields_jmp _ _ 0x75#8 rfl rfl).trans (useReg_num dst _)

theorem FieldsRoundTrip.jmpJsgeX (dst : Reg) (src : Reg) (off : BitVec 16) : FieldsRoundTrip.Statement (.jmpJsgeX dst src off) := fun _ _ =>
  (decodeFields_jmp _ _ 0x7d#8 rfl rfl).trans ((useReg_num dst _).trans (useReg_num src _))

theorem FieldsRoundTrip.jmp32JsgeK (dst : Reg) (off : BitVec 16) (imm : BitVec 32) : FieldsRoundTrip.Statement (.jmp32JsgeK dst off imm) := fun _ _ =>
  (decodeFields_jmp32 _ _ 0x76#8 rfl rfl).trans (useReg_num dst _)

theorem FieldsRoundTrip.jmp32JsgeX (dst : Reg) (src : Reg) (off : BitVec 16) : FieldsRoundTrip.Statement (.jmp32JsgeX dst src off) := fun _ _ =>
  (decodeFields_jmp32 _ _ 0x7e#8 rfl rfl).trans ((useReg_num dst _).trans (useReg_num src _))

theorem FieldsRoundTrip.jmpJltK (dst : Reg) (off : BitVec 16) (imm : BitVec 32) : FieldsRoundTrip.Statement (.jmpJltK dst off imm) := fun _ _ =>
  (decodeFields_jmp _ _ 0xa5#8 rfl rfl).trans (useReg_num dst _)

theorem FieldsRoundTrip.jmpJltX (dst : Reg) (src : Reg) (off : BitVec 16) : FieldsRoundTrip.Statement (.jmpJltX dst src off) := fun _ _ =>
  (decodeFields_jmp _ _ 0xad#8 rfl rfl).trans ((useReg_num dst _).trans (useReg_num src _))

theorem FieldsRoundTrip.jmp32JltK (dst : Reg) (off : BitVec 16) (imm : BitVec 32) : FieldsRoundTrip.Statement (.jmp32JltK dst off imm) := fun _ _ =>
  (decodeFields_jmp32 _ _ 0xa6#8 rfl rfl).trans (useReg_num dst _)

theorem FieldsRoundTrip.jmp32JltX (dst : Reg) (src : Reg) (off : BitVec 16) : FieldsRoundTrip.Statement (.jmp32JltX dst src off) := fun _ _ =>
  (decodeFields_jmp32 _ _ 0xae#8 rfl rfl).trans ((useReg_num dst _).trans (useReg_num src _))

theorem FieldsRoundTrip.jmpJleK (dst : Reg) (off : BitVec 16) (imm : BitVec 32) : FieldsRoundTrip.Statement (.jmpJleK dst off imm) := fun _ _ =>
  (decodeFields_jmp _ _ 0xb5#8 rfl rfl).trans (useReg_num dst _)

theorem FieldsRoundTrip.jmpJleX (dst : Reg) (src : Reg) (off : BitVec 16) : FieldsRoundTrip.Statement (.jmpJleX dst src off) := fun _ _ =>
  (decodeFields_jmp _ _ 0xbd#8 rfl rfl).trans ((useReg_num dst _).trans (useReg_num src _))

theorem FieldsRoundTrip.jmp32JleK (dst : Reg) (off : BitVec 16) (imm : BitVec 32) : FieldsRoundTrip.Statement (.jmp32JleK dst off imm) := fun _ _ =>
  (decodeFields_jmp32 _ _ 0xb6#8 rfl rfl).trans (useReg_num dst _)

theorem FieldsRoundTrip.jmp32JleX (dst : Reg) (src : Reg) (off : BitVec 16) : FieldsRoundTrip.Statement (.jmp32JleX dst src off) := fun _ _ =>
  (decodeFields_jmp32 _ _ 0xbe#8 rfl rfl).trans ((useReg_num dst _).trans (useReg_num src _))

theorem FieldsRoundTrip.jmpJsltK (dst : Reg) (off : BitVec 16) (imm : BitVec 32) : FieldsRoundTrip.Statement (.jmpJsltK dst off imm) := fun _ _ =>
  (decodeFields_jmp _ _ 0xc5#8 rfl rfl).trans (useReg_num dst _)

theorem FieldsRoundTrip.jmpJsltX (dst : Reg) (src : Reg) (off : BitVec 16) : FieldsRoundTrip.Statement (.jmpJsltX dst src off) := fun _ _ =>
  (decodeFields_jmp _ _ 0xcd#8 rfl rfl).trans ((useReg_num dst _).trans (useReg_num src _))

theorem FieldsRoundTrip.jmp32JsltK (dst : Reg) (off : BitVec 16) (imm : BitVec 32) : FieldsRoundTrip.Statement (.jmp32JsltK dst off imm) := fun _ _ =>
  (decodeFields_jmp32 _ _ 0xc6#8 rfl rfl).trans (useReg_num dst _)

theorem FieldsRoundTrip.jmp32JsltX (dst : Reg) (src : Reg) (off : BitVec 16) : FieldsRoundTrip.Statement (.jmp32JsltX dst src off) := fun _ _ =>
  (decodeFields_jmp32 _ _ 0xce#8 rfl rfl).trans ((useReg_num dst _).trans (useReg_num src _))

theorem FieldsRoundTrip.jmpJsleK (dst : Reg) (off : BitVec 16) (imm : BitVec 32) : FieldsRoundTrip.Statement (.jmpJsleK dst off imm) := fun _ _ =>
  (decodeFields_jmp _ _ 0xd5#8 rfl rfl).trans (useReg_num dst _)

theorem FieldsRoundTrip.jmpJsleX (dst : Reg) (src : Reg) (off : BitVec 16) : FieldsRoundTrip.Statement (.jmpJsleX dst src off) := fun _ _ =>
  (decodeFields_jmp _ _ 0xdd#8 rfl rfl).trans ((useReg_num dst _).trans (useReg_num src _))

theorem FieldsRoundTrip.jmp32JsleK (dst : Reg) (off : BitVec 16) (imm : BitVec 32) : FieldsRoundTrip.Statement (.jmp32JsleK dst off imm) := fun _ _ =>
  (decodeFields_jmp32 _ _ 0xd6#8 rfl rfl).trans (useReg_num dst _)

theorem FieldsRoundTrip.jmp32JsleX (dst : Reg) (src : Reg) (off : BitVec 16) : FieldsRoundTrip.Statement (.jmp32JsleX dst src off) := fun _ _ =>
  (decodeFields_jmp32 _ _ 0xde#8 rfl rfl).trans ((useReg_num dst _).trans (useReg_num src _))

theorem FieldsRoundTrip.jmpCallHelper (imm : BitVec 32) : FieldsRoundTrip.Statement (.jmpCallHelper imm) := fun _ _ =>
  (decodeFields_jmp _ _ 0x85#8 rfl rfl).trans (rfl)

theorem FieldsRoundTrip.jmpCallLocal (imm : BitVec 32) : FieldsRoundTrip.Statement (.jmpCallLocal imm) := fun _ _ =>
  (decodeFields_jmp _ _ 0x85#8 rfl rfl).trans (rfl)

theorem FieldsRoundTrip.jmpCallBtf (imm : BitVec 32) : FieldsRoundTrip.Statement (.jmpCallBtf imm) := fun _ _ =>
  (decodeFields_jmp _ _ 0x85#8 rfl rfl).trans (rfl)

theorem FieldsRoundTrip.jmpExit : FieldsRoundTrip.Statement .jmpExit := fun _ _ =>
  (decodeFields_jmp _ _ 0x95#8 rfl rfl).trans (rfl)

theorem FieldsRoundTrip.ldxMemW (dst : Reg) (src : Reg) (off : BitVec 16) : FieldsRoundTrip.Statement (.ldxMemW dst src off) := fun _ _ =>
  (decodeFields_ldx _ _ 0x61#8 rfl rfl).trans ((useReg_num dst _).trans (useReg_num src _))

theorem FieldsRoundTrip.ldxMemH (dst : Reg) (src : Reg) (off : BitVec 16) : FieldsRoundTrip.Statement (.ldxMemH dst src off) := fun _ _ =>
  (decodeFields_ldx _ _ 0x69#8 rfl rfl).trans ((useReg_num dst _).trans (useReg_num src _))

theorem FieldsRoundTrip.ldxMemB (dst : Reg) (src : Reg) (off : BitVec 16) : FieldsRoundTrip.Statement (.ldxMemB dst src off) := fun _ _ =>
  (decodeFields_ldx _ _ 0x71#8 rfl rfl).trans ((useReg_num dst _).trans (useReg_num src _))

theorem FieldsRoundTrip.ldxMemDw (dst : Reg) (src : Reg) (off : BitVec 16) : FieldsRoundTrip.Statement (.ldxMemDw dst src off) := fun _ _ =>
  (decodeFields_ldx _ _ 0x79#8 rfl rfl).trans ((useReg_num dst _).trans (useReg_num src _))

theorem FieldsRoundTrip.ldxMemsxW (dst : Reg) (src : Reg) (off : BitVec 16) : FieldsRoundTrip.Statement (.ldxMemsxW dst src off) := fun _ _ =>
  (decodeFields_ldx _ _ 0x81#8 rfl rfl).trans ((useReg_num dst _).trans (useReg_num src _))

theorem FieldsRoundTrip.ldxMemsxH (dst : Reg) (src : Reg) (off : BitVec 16) : FieldsRoundTrip.Statement (.ldxMemsxH dst src off) := fun _ _ =>
  (decodeFields_ldx _ _ 0x89#8 rfl rfl).trans ((useReg_num dst _).trans (useReg_num src _))

theorem FieldsRoundTrip.ldxMemsxB (dst : Reg) (src : Reg) (off : BitVec 16) : FieldsRoundTrip.Statement (.ldxMemsxB dst src off) := fun _ _ =>
  (decodeFields_ldx _ _ 0x91#8 rfl rfl).trans ((useReg_num dst _).trans (useReg_num src _))

theorem FieldsRoundTrip.stMemW (dst : Reg) (off : BitVec 16) (imm : BitVec 32) : FieldsRoundTrip.Statement (.stMemW dst off imm) := fun _ _ =>
  (decodeFields_st _ _ 0x62#8 rfl rfl).trans (useReg_num dst _)

theorem FieldsRoundTrip.stMemH (dst : Reg) (off : BitVec 16) (imm : BitVec 32) : FieldsRoundTrip.Statement (.stMemH dst off imm) := fun _ _ =>
  (decodeFields_st _ _ 0x6a#8 rfl rfl).trans (useReg_num dst _)

theorem FieldsRoundTrip.stMemB (dst : Reg) (off : BitVec 16) (imm : BitVec 32) : FieldsRoundTrip.Statement (.stMemB dst off imm) := fun _ _ =>
  (decodeFields_st _ _ 0x72#8 rfl rfl).trans (useReg_num dst _)

theorem FieldsRoundTrip.stMemDw (dst : Reg) (off : BitVec 16) (imm : BitVec 32) : FieldsRoundTrip.Statement (.stMemDw dst off imm) := fun _ _ =>
  (decodeFields_st _ _ 0x7a#8 rfl rfl).trans (useReg_num dst _)

theorem FieldsRoundTrip.stxMemW (dst : Reg) (src : Reg) (off : BitVec 16) : FieldsRoundTrip.Statement (.stxMemW dst src off) := fun _ _ =>
  (decodeFields_stx _ _ 0x63#8 rfl rfl).trans ((useReg_num dst _).trans (useReg_num src _))

theorem FieldsRoundTrip.stxMemH (dst : Reg) (src : Reg) (off : BitVec 16) : FieldsRoundTrip.Statement (.stxMemH dst src off) := fun _ _ =>
  (decodeFields_stx _ _ 0x6b#8 rfl rfl).trans ((useReg_num dst _).trans (useReg_num src _))

theorem FieldsRoundTrip.stxMemB (dst : Reg) (src : Reg) (off : BitVec 16) : FieldsRoundTrip.Statement (.stxMemB dst src off) := fun _ _ =>
  (decodeFields_stx _ _ 0x73#8 rfl rfl).trans ((useReg_num dst _).trans (useReg_num src _))

theorem FieldsRoundTrip.stxMemDw (dst : Reg) (src : Reg) (off : BitVec 16) : FieldsRoundTrip.Statement (.stxMemDw dst src off) := fun _ _ =>
  (decodeFields_stx _ _ 0x7b#8 rfl rfl).trans ((useReg_num dst _).trans (useReg_num src _))

theorem FieldsRoundTrip.stxAtomicWAdd (dst : Reg) (src : Reg) (off : BitVec 16) : FieldsRoundTrip.Statement (.stxAtomicWAdd dst src off) := fun _ _ =>
  (decodeFields_stx _ _ 0xc3#8 rfl rfl).trans ((useReg_num dst _).trans (useReg_num src _))

theorem FieldsRoundTrip.stxAtomicDwAdd (dst : Reg) (src : Reg) (off : BitVec 16) : FieldsRoundTrip.Statement (.stxAtomicDwAdd dst src off) := fun _ _ =>
  (decodeFields_stx _ _ 0xdb#8 rfl rfl).trans ((useReg_num dst _).trans (useReg_num src _))

theorem FieldsRoundTrip.stxAtomicWOr (dst : Reg) (src : Reg) (off : BitVec 16) : FieldsRoundTrip.Statement (.stxAtomicWOr dst src off) := fun _ _ =>
  (decodeFields_stx _ _ 0xc3#8 rfl rfl).trans ((useReg_num dst _).trans (useReg_num src _))

theorem FieldsRoundTrip.stxAtomicDwOr (dst : Reg) (src : Reg) (off : BitVec 16) : FieldsRoundTrip.Statement (.stxAtomicDwOr dst src off) := fun _ _ =>
  (decodeFields_stx _ _ 0xdb#8 rfl rfl).trans ((useReg_num dst _).trans (useReg_num src _))

theorem FieldsRoundTrip.stxAtomicWAnd (dst : Reg) (src : Reg) (off : BitVec 16) : FieldsRoundTrip.Statement (.stxAtomicWAnd dst src off) := fun _ _ =>
  (decodeFields_stx _ _ 0xc3#8 rfl rfl).trans ((useReg_num dst _).trans (useReg_num src _))

theorem FieldsRoundTrip.stxAtomicDwAnd (dst : Reg) (src : Reg) (off : BitVec 16) : FieldsRoundTrip.Statement (.stxAtomicDwAnd dst src off) := fun _ _ =>
  (decodeFields_stx _ _ 0xdb#8 rfl rfl).trans ((useReg_num dst _).trans (useReg_num src _))

theorem FieldsRoundTrip.stxAtomicWXor (dst : Reg) (src : Reg) (off : BitVec 16) : FieldsRoundTrip.Statement (.stxAtomicWXor dst src off) := fun _ _ =>
  (decodeFields_stx _ _ 0xc3#8 rfl rfl).trans ((useReg_num dst _).trans (useReg_num src _))

theorem FieldsRoundTrip.stxAtomicDwXor (dst : Reg) (src : Reg) (off : BitVec 16) : FieldsRoundTrip.Statement (.stxAtomicDwXor dst src off) := fun _ _ =>
  (decodeFields_stx _ _ 0xdb#8 rfl rfl).trans ((useReg_num dst _).trans (useReg_num src _))

theorem FieldsRoundTrip.stxAtomicWAddFetch (dst : Reg) (src : Reg) (off : BitVec 16) : FieldsRoundTrip.Statement (.stxAtomicWAddFetch dst src off) := fun _ _ =>
  (decodeFields_stx _ _ 0xc3#8 rfl rfl).trans ((useReg_num dst _).trans (useReg_num src _))

theorem FieldsRoundTrip.stxAtomicDwAddFetch (dst : Reg) (src : Reg) (off : BitVec 16) : FieldsRoundTrip.Statement (.stxAtomicDwAddFetch dst src off) := fun _ _ =>
  (decodeFields_stx _ _ 0xdb#8 rfl rfl).trans ((useReg_num dst _).trans (useReg_num src _))

theorem FieldsRoundTrip.stxAtomicWOrFetch (dst : Reg) (src : Reg) (off : BitVec 16) : FieldsRoundTrip.Statement (.stxAtomicWOrFetch dst src off) := fun _ _ =>
  (decodeFields_stx _ _ 0xc3#8 rfl rfl).trans ((useReg_num dst _).trans (useReg_num src _))

theorem FieldsRoundTrip.stxAtomicDwOrFetch (dst : Reg) (src : Reg) (off : BitVec 16) : FieldsRoundTrip.Statement (.stxAtomicDwOrFetch dst src off) := fun _ _ =>
  (decodeFields_stx _ _ 0xdb#8 rfl rfl).trans ((useReg_num dst _).trans (useReg_num src _))

theorem FieldsRoundTrip.stxAtomicWAndFetch (dst : Reg) (src : Reg) (off : BitVec 16) : FieldsRoundTrip.Statement (.stxAtomicWAndFetch dst src off) := fun _ _ =>
  (decodeFields_stx _ _ 0xc3#8 rfl rfl).trans ((useReg_num dst _).trans (useReg_num src _))

theorem FieldsRoundTrip.stxAtomicDwAndFetch (dst : Reg) (src : Reg) (off : BitVec 16) : FieldsRoundTrip.Statement (.stxAtomicDwAndFetch dst src off) := fun _ _ =>
  (decodeFields_stx _ _ 0xdb#8 rfl rfl).trans ((useReg_num dst _).trans (useReg_num src _))

theorem FieldsRoundTrip.stxAtomicWXorFetch (dst : Reg) (src : Reg) (off : BitVec 16) : FieldsRoundTrip.Statement (.stxAtomicWXorFetch dst src off) := fun _ _ =>
  (decodeFields_stx _ _ 0xc3#8 rfl rfl).trans ((useReg_num dst _).trans (useReg_num src _))

theorem FieldsRoundTrip.stxAtomicDwXorFetch (dst : Reg) (src : Reg) (off : BitVec 16) : FieldsRoundTrip.Statement (.stxAtomicDwXorFetch dst src off) := fun _ _ =>
  (decodeFields_stx _ _ 0xdb#8 rfl rfl).trans ((useReg_num dst _).trans (useReg_num src _))

theorem FieldsRoundTrip.stxAtomicWXchg (dst : Reg) (src : Reg) (off : BitVec 16) : FieldsRoundTrip.Statement (.stxAtomicWXchg dst src off) := fun _ _ =>
  (decodeFields_stx _ _ 0xc3#8 rfl rfl).trans ((useReg_num dst _).trans (useReg_num src _))

theorem FieldsRoundTrip.stxAtomicDwXchg (dst : Reg) (src : Reg) (off : BitVec 16) : FieldsRoundTrip.Statement (.stxAtomicDwXchg dst src off) := fun _ _ =>
  (decodeFields_stx _ _ 0xdb#8 rfl rfl).trans ((useReg_num dst _).trans (useReg_num src _))

theorem FieldsRoundTrip.stxAtomicWCmpxchg (dst : Reg) (src : Reg) (off : BitVec 16) : FieldsRoundTrip.Statement (.stxAtomicWCmpxchg dst src off) := fun _ _ =>
  (decodeFields_stx _ _ 0xc3#8 rfl rfl).trans ((useReg_num dst _).trans (useReg_num src _))

theorem FieldsRoundTrip.stxAtomicDwCmpxchg (dst : Reg) (src : Reg) (off : BitVec 16) : FieldsRoundTrip.Statement (.stxAtomicDwCmpxchg dst src off) := fun _ _ =>
  (decodeFields_stx _ _ 0xdb#8 rfl rfl).trans ((useReg_num dst _).trans (useReg_num src _))

theorem FieldsRoundTrip.ldImm64 (dst : Reg) (imm : BitVec 32) (nextImm : BitVec 32) : FieldsRoundTrip.Statement (.ldImm64 dst imm nextImm) := fun _ h =>
  (congrArg _ (h nextImm rfl)).trans ((decodeFields_ld _ _ 0x18#8 rfl rfl).trans (useReg_num dst _))

theorem FieldsRoundTrip.ldMapByFd (dst : Reg) (imm : BitVec 32) : FieldsRoundTrip.Statement (.ldMapByFd dst imm) := fun _ h =>
  (congrArg _ (h 0 rfl)).trans ((decodeFields_ld _ _ 0x18#8 rfl rfl).trans (useReg_num dst _))

theorem FieldsRoundTrip.ldMapValByFd (dst : Reg) (imm : BitVec 32) (nextImm : BitVec 32) : FieldsRoundTrip.Statement (.ldMapValByFd dst imm nextImm) := fun _ h =>
  (congrArg _ (h nextImm rfl)).trans ((decodeFields_ld _ _ 0x18#8 rfl rfl).trans (useReg_num dst _))

theorem FieldsRoundTrip.ldVarAddr (dst : Reg) (imm : BitVec 32) : FieldsRoundTrip.Statement (.ldVarAddr dst imm) := fun _ h =>
  (congrArg _ (h 0 rfl)).trans ((decodeFields_ld _ _ 0x18#8 rfl rfl).trans (useReg_num dst _))

theorem FieldsRoundTrip.ldCodeAddr (dst : Reg) (imm : BitVec 32) : FieldsRoundTrip.Statement (.ldCodeAddr dst imm) := fun _ h =>
  (congrArg _ (h 0 rfl)).trans ((decodeFields_ld _ _ 0x18#8 rfl rfl).trans (useReg_num dst _))

theorem FieldsRoundTrip.ldMapByIdx (dst : Reg) (imm : BitVec 32) : FieldsRoundTrip.Statement (.ldMapByIdx dst imm) := fun _ h =>
  (congrArg _ (h 0 rfl)).trans ((decodeFields_ld _ _ 0x18#8 rfl rfl).trans (useReg_num dst _))

theorem FieldsRoundTrip.ldMapValByIdx (dst : Reg) (imm : BitVec 32) (nextImm : BitVec 32) : FieldsRoundTrip.Statement (.ldMapValByIdx dst imm nextImm) := fun _ h =>
  (congrArg _ (h nextImm rfl)).trans ((decodeFields_ld _ _ 0x18#8 rfl rfl).trans (useReg_num dst _))

theorem FieldsRoundTrip.ldAbsW (imm : BitVec 32) : FieldsRoundTrip.Statement (.ldAbsW imm) := fun _ _ =>
  (decodeFields_ld _ _ 0x20#8 rfl rfl).trans (rfl)

theorem FieldsRoundTrip.ldAbsH (imm : BitVec 32) : FieldsRoundTrip.Statement (.ldAbsH imm) := fun _ _ =>
  (decodeFields_ld _ _ 0x28#8 rfl rfl).trans (rfl)

theorem FieldsRoundTrip.ldAbsB (imm : BitVec 32) : FieldsRoundTrip.Statement (.ldAbsB imm) := fun _ _ =>
  (decodeFields_ld _ _ 0x30#8 rfl rfl).trans (rfl)

theorem FieldsRoundTrip.ldIndW (src : Reg) (imm : BitVec 32) : FieldsRoundTrip.Statement (.ldIndW src imm) := fun _ _ =>
  (decodeFields_ld _ _ 0x40#8 rfl rfl).trans (useReg_num src _)

theorem FieldsRoundTrip.ldIndH (src : Reg) (imm : BitVec 32) : FieldsRoundTrip.Statement (.ldIndH src imm) := fun _ _ =>
  (decodeFields_ld _ _ 0x48#8 rfl rfl).trans (useReg_num src _)

theorem FieldsRoundTrip.ldIndB (src : Reg) (imm : BitVec 32) : FieldsRoundTrip.Statement (.ldIndB src imm) := fun _ _ =>
  (decodeFields_ld _ _ 0x50#8 rfl rfl).trans (useReg_num src _)

end Sys2Proof.Laws
end

