-- ==== Sys2Proof/Laws/Platform.lean ====
section
/-!
SUPPORT. Laws/Platform.lean: what the Boolean checks on stack frames and on `Admit` say, as propositions.
-/

namespace Sys2Proof

/-- Bytes touch a frame when neither is empty and they have a byte in common. -/
theorem Params.touchesFrame_iff {p : Params} {d a n : Nat} : p.touchesFrame d a n = true ↔
    p.frameBase d < a + n ∧ a < p.frameTop d ∧ p.frameBase d < p.frameTop d ∧ 0 < n := by
  simp [Params.touchesFrame, and_assoc]

/-- One byte touches a frame when it lies in it. -/
theorem Params.touchesFrame_byte {p : Params} {d a : Nat} :
    p.touchesFrame d a 1 = true ↔ p.frameBase d ≤ a ∧ a < p.frameTop d := by
  rw [Params.touchesFrame_iff]
  omega

/-- Bytes touch a dead frame when they touch the frame of some greater depth. -/
theorem Params.touchesDeadFrame_iff {p : Params} {d a n : Nat} : p.touchesDeadFrame d a n = true ↔
    ∃ e, d < e ∧ e ≤ p.maxCallDepth ∧ p.touchesFrame e a n = true := by
  simp only [Params.touchesDeadFrame, List.any_eq_true, List.mem_range, Bool.and_eq_true, decide_eq_true_eq]
  constructor
  · rintro ⟨e, h, h1, h2⟩
    exact ⟨e, h1, by omega, h2⟩
  · rintro ⟨e, h1, h, h2⟩
    exact ⟨e, by omega, h1, h2⟩

/-- A byte of a dead frame is a byte of the stack. -/
theorem Params.stackByte_of_dead {p : Params} {d a : Nat} (h : p.touchesDeadFrame d a 1 = true) :
    p.stackByte a = true := by
  obtain ⟨e, -, hm, ht⟩ := Params.touchesDeadFrame_iff.mp h
  simp only [Params.stackByte, List.any_eq_true, List.mem_range]
  exact ⟨e, by omega, ht⟩

/-- What `Admit` has checked of an access that it lets through. -/
theorem Params.admits_parts {p : Params} {d : Nat} {addr : Word} {n : Nat} {kind : AccessKind}
    (h : p.admits d addr n kind = true) :
    addr.toNat + n ≤ 2 ^ 64 ∧ p.aligned addr.toNat n kind = true ∧ p.touchesDeadFrame d addr.toNat n = false ∧
      p.touchesCode addr.toNat n = false ∧ p.allows d addr.toNat n kind = true := by
  simp only [Params.admits, Bool.and_eq_true, decide_eq_true_eq, Bool.not_eq_true'] at h
  obtain ⟨⟨⟨⟨⟨h1, h2⟩, h3⟩, h4⟩, h5⟩, -⟩ := h
  exact ⟨h1, h2, h3, h4, h5⟩

/-- An access admitted for an atomic operation is one admitted for a read and for a write (rule R371). -/
theorem Params.admits_of_atomic {p : Params} {d : Nat} {addr : Word} {n : Nat} (h : p.admits d addr n .atomic = true) :
    p.admits d addr n .read = true ∧ p.admits d addr n .write = true := by
  simp only [Params.admits, Params.aligned, Bool.and_eq_true, Bool.or_eq_true, decide_eq_true_eq] at h ⊢
  simp_all

/-- Bytes that touch no program text have no byte in common with the slot at any code address (rule R421). -/
theorem Params.touchesCode_eq_false {p : Params} {a n : Nat} : p.touchesCode a n = false ↔
    ∀ e ∈ p.codeAddr, a + n ≤ e.2.toNat ∨ e.2.toNat + 8 ≤ a := by
  simp only [Params.touchesCode, List.any_eq_false, Bool.and_eq_true, decide_eq_true_eq]
  refine forall₂_congr fun e _ => ?_
  omega

/-- The grants that stand for a predicate on the addresses below a bound and on some sizes. -/
theorem exists_grants_below (pred : Nat → Nat → AccessKind → Bool) (sizes : List Nat) (bound : Nat) :
    ∃ grants : List Grant, ∀ a n kind, grants.any (fun g => g.covers a n kind) =
      (decide (a < bound) && sizes.contains n && pred a n kind) := by
  refine ⟨(List.range bound).flatMap fun a => sizes.flatMap fun n =>
    ([.read, .write, .atomic].filter (pred a n)).map fun kind => ⟨a, a, [n], [kind]⟩, fun a n kind => ?_⟩
  rw [Bool.eq_iff_iff]
  simp only [List.any_eq_true, List.mem_flatMap, List.mem_range, List.mem_map, List.mem_filter, Bool.and_eq_true,
    decide_eq_true_eq, List.contains_iff_mem]
  constructor
  · rintro ⟨g, ⟨a', ha, n', hn, kind', ⟨-, hk⟩, rfl⟩, h⟩
    simp only [Grant.covers, Bool.and_eq_true, decide_eq_true_eq, List.contains_iff_mem, List.mem_singleton] at h
    obtain ⟨⟨⟨h1, h2⟩, rfl⟩, rfl⟩ := h
    obtain rfl : a' = a := by omega
    exact ⟨⟨ha, hn⟩, hk⟩
  · rintro ⟨⟨ha, hn⟩, hk⟩
    refine ⟨_, ⟨a, ha, n, hn, kind, ⟨by cases kind <;> simp, hk⟩, rfl⟩, ?_⟩
    simp [Grant.covers]

/-- Every predicate on the address, the size and the kind of an access is a list of grants (rules R10, R66). -/
theorem exists_grants (pred : Word → Nat → AccessKind → Bool) : ∃ grants : List Grant,
    ∀ (addr : Word) n kind, n ∈ [1, 2, 4, 8] → grants.any (fun g => g.covers addr.toNat n kind) = pred addr n kind := by
  obtain ⟨grants, h⟩ := exists_grants_below (fun a n kind => pred (BitVec.ofNat 64 a) n kind) [1, 2, 4, 8] (2 ^ 64)
  refine ⟨grants, fun addr n kind hn => ?_⟩
  rw [h, BitVec.ofNat_toNat, BitVec.setWidth_eq, List.contains_iff_mem.mpr hn, decide_eq_true addr.isLt]
  rfl

end Sys2Proof
end

