-- ==== Sys2Proof/Laws/Step.lean ====
section
/-!
SUPPORT. Laws/Step.lean: what a step can do, said once over all instructions.
-/

namespace Sys2Proof.Machine

/-- A next state that `exec` answers is one that the instruction can lead to. -/
theorem effect_of_exec {i : Instr} {s t : State} (h : exec i s = .next t) : Effect i s t := by
  obtain ⟨u, hu, he⟩ := exec_effect i s
  rw [hu] at h
  cases h
  exact he

/-- A step starts from a running state, and either raises the fault that decoding answers, or does what the decoded
instruction, which is there and well-formed, can do. -/
theorem step_cases {s t : State} (h : step s = .next t) :
    s.status = .running ∧
      ((∃ r, decodeAt s s.pc = .error r ∧ t = { s with status := .faulted r }) ∨
        ∃ i, decodeAt s s.pc = .ok i ∧ DecodedAt s s.pc i ∧ Effect i s t) := by
  unfold step at h
  split at h
  · cases h
  · cases h
  · refine ⟨‹_›, ?_⟩
    split at h
    · exact .inl ⟨_, ‹_›, by cases h; rfl⟩
    · exact .inr ⟨_, ‹_›, decodeAt_eq_ok ‹_›, effect_of_exec h⟩

end Sys2Proof.Machine
end

