-- ==== Sys2Proof/Tests/Slice0.lean ====
section
/-!
SUPPORT. Tests/Slice0.lean: the checks of WellFormed refuse an ill-formed term; every constructor decodes from a word
written out from its row of the encoding tables; one step on vectors of 95_test_vectors.md; and for every obligation with
hypotheses, states and operands that meet them together (`witness_<the obligation's name>_…`).
-/

namespace Sys2Proof.Tests

open Sys2Proof.Machine

/-! ### WellFormed refuses what it must -/

/-- A platform that supports `base32` alone. -/
def base32Only : Params := { Params.default with groups := [.base32] }

/-- The group check: a 64-bit addition on a platform without `base64`, and EXIT, which it accepts. -/
theorem test_wellFormed_group :
    ¬(Instr.alu64AddX .r1 .r2).WellFormed base32Only ∧ Instr.jmpExit.WellFormed base32Only := by decide

/-- The R10 check: a move to R10, refused while R10 is read-only and accepted where it is not. -/
theorem test_wellFormed_r10 : ¬(Instr.alu64MovX .r10 .r1).WellFormed Params.default ∧
    (Instr.alu64MovX .r10 .r1).WellFormed { Params.default with r10ReadOnly := false } := by decide

/-- A fetching atomic writes its source register: the R10 check sees it there. -/
theorem test_wellFormed_fetch : ¬(Instr.stxAtomicDwXchg .r1 .r10 0).WellFormed Params.default ∧
    (Instr.stxAtomicDwAdd .r10 .r10 0).WellFormed Params.default := by decide

/-! ### Decoding -/

/-- The source's own example (S3), `r1 += 0x11223344` on either host, and the wide one of vector I187. -/
theorem test_decode_source_example :
    (decodeBytes Params.default [0x07, 0x01, 0, 0, 0x44, 0x33, 0x22, 0x11]).toOption = some (.alu64AddK .r1 0x11223344, []) ∧
    (decodeBytes { Params.default with hostEndian := .big } [0x07, 0x10, 0, 0, 0x11, 0x22, 0x33, 0x44]).toOption =
      some (.alu64AddK .r1 0x11223344, []) ∧
    (decodeBytes Params.default [0x18, 1, 0, 0, 0xef, 0xcd, 0xab, 0x89, 0, 0, 0, 0, 0x67, 0x45, 0x23, 0x01]).toOption =
      some (.ldImm64 .r1 0x89abcdef 0x01234567, []) := by decide +kernel

/-- class ALU but END: every constructor from a word written out from its row. -/
theorem test_decode_alu32 : ∀ p ∈ (
    [(0x1122334400000104, .aluAddK .r1 287454020), (0x000000000000940c, .aluAddX .r4 .r9),
      (0xffffffff00000714, .aluSubK .r7 (-1)), (0x000000000000101c, .aluSubX .r0 .r1),
      (0x8000000000000324, .aluMulK .r3 (-2147483648)), (0x000000000000462c, .aluMulX .r6 .r4),
      (0x7fffffff00000934, .aluDivK .r9 2147483647), (0x000000000000723c, .aluDivX .r2 .r7),
      (0x0000000700010534, .aluSdivK .r5 7), (0x000000000001a83c, .aluSdivX .r8 .r10),
      (0xfffffed400000144, .aluOrK .r1 (-300)), (0x000000000000244c, .aluOrX .r4 .r2),
      (0x0000ff0000000754, .aluAndK .r7 65280), (0x000000000000505c, .aluAndX .r0 .r5),
      (0x000055aa00000364, .aluLshK .r3 21930), (0x000000000000866c, .aluLshX .r6 .r8),
      (0x1122334400000974, .aluRshK .r9 287454020), (0x000000000000027c, .aluRshX .r2 .r0),
      (0x0000000000000584, .aluNegK .r5), (0xffffffff00000894, .aluModK .r8 (-1)),
      (0x000000000000a19c, .aluModX .r1 .r10), (0x8000000000010494, .aluSmodK .r4 (-2147483648)),
      (0x000000000001279c, .aluSmodX .r7 .r2), (0x7fffffff000000a4, .aluXorK .r0 2147483647),
      (0x00000000000053ac, .aluXorX .r3 .r5), (0x00000007000006b4, .aluMovK .r6 7),
      (0x00000000000089bc, .aluMovX .r9 .r8), (0x00000000000842bc, .aluMovsx8X .r2 .r4),
      (0x00000000001005bc, .aluMovsx16X .r5 .r0), (0x0000ff00000008c4, .aluArshK .r8 65280),
      (0x00000000000031cc, .aluArshX .r1 .r3)] : List (Nat × Instr)),
    decodeTableWord 64 p.1 = some p.2 := by decide +kernel

/-- END: every constructor from a word written out from its row. -/
theorem test_decode_byte_swap : ∀ p ∈ (
    [(0x00000010000004d4, .aluEndToLe16 .r4), (0x00000020000007d4, .aluEndToLe32 .r7),
      (0x00000040000000d4, .aluEndToLe64 .r0), (0x00000010000003dc, .aluEndToBe16 .r3),
      (0x00000020000006dc, .aluEndToBe32 .r6), (0x00000040000009dc, .aluEndToBe64 .r9),
      (0x00000010000002d7, .alu64EndBswap16 .r2), (0x00000020000005d7, .alu64EndBswap32 .r5),
      (0x00000040000008d7, .alu64EndBswap64 .r8)] : List (Nat × Instr)),
    decodeTableWord 64 p.1 = some p.2 := by decide +kernel

/-- class ALU64 but END: every constructor from a word written out from its row. -/
theorem test_decode_alu64 : ∀ p ∈ (
    [(0x0000000700000107, .alu64AddK .r1 7), (0x000000000000340f, .alu64AddX .r4 .r3),
      (0xfffffed400000717, .alu64SubK .r7 (-300)), (0x000000000000601f, .alu64SubX .r0 .r6),
      (0x0000ff0000000327, .alu64MulK .r3 65280), (0x000000000000962f, .alu64MulX .r6 .r9),
      (0x000055aa00000937, .alu64DivK .r9 21930), (0x000000000000123f, .alu64DivX .r2 .r1),
      (0x1122334400010537, .alu64SdivK .r5 287454020), (0x000000000001483f, .alu64SdivX .r8 .r4),
      (0xffffffff00000147, .alu64OrK .r1 (-1)), (0x000000000000744f, .alu64OrX .r4 .r7),
      (0x8000000000000757, .alu64AndK .r7 (-2147483648)), (0x000000000000a05f, .alu64AndX .r0 .r10),
      (0x7fffffff00000367, .alu64LshK .r3 2147483647), (0x000000000000266f, .alu64LshX .r6 .r2),
      (0x0000000700000977, .alu64RshK .r9 7), (0x000000000000527f, .alu64RshX .r2 .r5),
      (0x0000000000000587, .alu64NegK .r5), (0xfffffed400000897, .alu64ModK .r8 (-300)),
      (0x000000000000419f, .alu64ModX .r1 .r4), (0x0000ff0000010497, .alu64SmodK .r4 65280),
      (0x000000000001779f, .alu64SmodX .r7 .r7), (0x000055aa000000a7, .alu64XorK .r0 21930),
      (0x000000000000a3af, .alu64XorX .r3 .r10), (0x11223344000006b7, .alu64MovK .r6 287454020),
      (0x00000000000029bf, .alu64MovX .r9 .r2), (0x00000000000892bf, .alu64Movsx8X .r2 .r9),
      (0x00000000001055bf, .alu64Movsx16X .r5 .r5), (0x00000000002018bf, .alu64Movsx32X .r8 .r1),
      (0x7fffffff000001c7, .alu64ArshK .r1 2147483647),
      (0x00000000000044cf, .alu64ArshX .r4 .r4)] : List (Nat × Instr)),
    decodeTableWord 64 p.1 = some p.2 := by decide +kernel

/-- class JMP: every constructor from a word written out from its row. -/
theorem test_decode_jump : ∀ p ∈ (
    [(0x00000000fff80005, .jmpJa (-8)), (0x000000077fff0015, .jmpJeqK .r0 32767 7),
      (0x000000008000331d, .jmpJeqX .r3 .r3 (-32768)), (0xfffffed400050625, .jmpJgtK .r6 5 (-300)),
      (0x00000000ffff692d, .jmpJgtX .r9 .r6 (-1)), (0x0000ff0000100235, .jmpJgeK .r2 16 65280),
      (0x00000000ff00953d, .jmpJgeX .r5 .r9 (-256)), (0x000055aa12340845, .jmpJsetK .r8 4660 21930),
      (0x00000000fff8114d, .jmpJsetX .r1 .r1 (-8)), (0x112233447fff0455, .jmpJneK .r4 32767 287454020),
      (0x000000008000475d, .jmpJneX .r7 .r4 (-32768)), (0xffffffff00050065, .jmpJsgtK .r0 5 (-1)),
      (0x00000000ffff736d, .jmpJsgtX .r3 .r7 (-1)), (0x8000000000100675, .jmpJsgeK .r6 16 (-2147483648)),
      (0x00000000ff00a97d, .jmpJsgeX .r9 .r10 (-256)), (0x7fffffff123402a5, .jmpJltK .r2 4660 2147483647),
      (0x00000000fff825ad, .jmpJltX .r5 .r2 (-8)), (0x000000077fff08b5, .jmpJleK .r8 32767 7),
      (0x00000000800051bd, .jmpJleX .r1 .r5 (-32768)), (0xfffffed4000504c5, .jmpJsltK .r4 5 (-300)),
      (0x00000000ffff87cd, .jmpJsltX .r7 .r8 (-1)), (0x0000ff00001000d5, .jmpJsleK .r0 16 65280),
      (0x00000000ff0003dd, .jmpJsleX .r3 .r0 (-256)), (0x000055aa00000085, .jmpCallHelper 21930),
      (0x1122334400001085, .jmpCallLocal 287454020), (0x1122334400002085, .jmpCallBtf 287454020),
      (0x0000000000000095, .jmpExit)] : List (Nat × Instr)),
    decodeTableWord 64 p.1 = some p.2 := by decide +kernel

/-- class JMP32: every constructor from a word written out from its row. -/
theorem test_decode_jump32 : ∀ p ∈ (
    [(0xffffffff00000006, .jmp32Ja (-1)), (0x80000000ffff0116, .jmp32JeqK .r1 (-1) (-2147483648)),
      (0x000000000010541e, .jmp32JeqX .r4 .r5 16), (0x7fffffffff000726, .jmp32JgtK .r7 (-256) 2147483647),
      (0x000000001234802e, .jmp32JgtX .r0 .r8 4660), (0x00000007fff80336, .jmp32JgeK .r3 (-8) 7),
      (0x000000007fff063e, .jmp32JgeX .r6 .r0 32767), (0xfffffed480000946, .jmp32JsetK .r9 (-32768) (-300)),
      (0x000000000005324e, .jmp32JsetX .r2 .r3 5), (0x0000ff00ffff0556, .jmp32JneK .r5 (-1) 65280),
      (0x000000000010685e, .jmp32JneX .r8 .r6 16), (0x000055aaff000166, .jmp32JsgtK .r1 (-256) 21930),
      (0x000000001234946e, .jmp32JsgtX .r4 .r9 4660), (0x11223344fff80776, .jmp32JsgeK .r7 (-8) 287454020),
      (0x000000007fff107e, .jmp32JsgeX .r0 .r1 32767), (0xffffffff800003a6, .jmp32JltK .r3 (-32768) (-1)),
      (0x00000000000546ae, .jmp32JltX .r6 .r4 5), (0x80000000ffff09b6, .jmp32JleK .r9 (-1) (-2147483648)),
      (0x00000000001072be, .jmp32JleX .r2 .r7 16), (0x7fffffffff0005c6, .jmp32JsltK .r5 (-256) 2147483647),
      (0x000000001234a8ce, .jmp32JsltX .r8 .r10 4660), (0x00000007fff801d6, .jmp32JsleK .r1 (-8) 7),
      (0x000000007fff24de, .jmp32JsleX .r4 .r2 32767)] : List (Nat × Instr)),
    decodeTableWord 64 p.1 = some p.2 := by decide +kernel

/-- class LDX: every constructor from a word written out from its row. -/
theorem test_decode_load : ∀ p ∈ (
    [(0x0000000080009761, .ldxMemW .r7 .r9 (-32768)), (0x0000000000055069, .ldxMemH .r0 .r5 5),
      (0x00000000ffff1371, .ldxMemB .r3 .r1 (-1)), (0x0000000000108679, .ldxMemDw .r6 .r8 16),
      (0x00000000ff004981, .ldxMemsxW .r9 .r4 (-256)), (0x0000000012340289, .ldxMemsxH .r2 .r0 4660),
      (0x00000000fff87591, .ldxMemsxB .r5 .r7 (-8))] : List (Nat × Instr)),
    decodeTableWord 64 p.1 = some p.2 := by decide +kernel

/-- ST and STX with mode MEM: every constructor from a word written out from its row. -/
theorem test_decode_store : ∀ p ∈ (
    [(0x112233447fff0862, .stMemW .r8 32767 287454020), (0xffffffff8000016a, .stMemH .r1 (-32768) (-1)),
      (0xffffffff00050472, .stMemB .r4 5 (-1)), (0x80000000ffff077a, .stMemDw .r7 (-1) (-2147483648)),
      (0x0000000000109063, .stxMemW .r0 .r9 16), (0x00000000ff00536b, .stxMemH .r3 .r5 (-256)),
      (0x0000000012341673, .stxMemB .r6 .r1 4660),
      (0x00000000fff8897b, .stxMemDw .r9 .r8 (-8))] : List (Nat × Instr)),
    decodeTableWord 64 p.1 = some p.2 := by decide +kernel

/-- STX with mode ATOMIC: every constructor from a word written out from its row. -/
theorem test_decode_atomic : ∀ p ∈ (
    [(0x000000007fff42c3, .stxAtomicWAdd .r2 .r4 32767), (0x00000000800005db, .stxAtomicDwAdd .r5 .r0 (-32768)),
      (0x00000040000578c3, .stxAtomicWOr .r8 .r7 5), (0x00000040ffff31db, .stxAtomicDwOr .r1 .r3 (-1)),
      (0x000000500010a4c3, .stxAtomicWAnd .r4 .r10 16), (0x00000050ff0067db, .stxAtomicDwAnd .r7 .r6 (-256)),
      (0x000000a0123420c3, .stxAtomicWXor .r0 .r2 4660), (0x000000a0fff893db, .stxAtomicDwXor .r3 .r9 (-8)),
      (0x000000017fff76c3, .stxAtomicWAddFetch .r6 .r7 32767),
      (0x00000001800049db, .stxAtomicDwAddFetch .r9 .r4 (-32768)),
      (0x00000041000512c3, .stxAtomicWOrFetch .r2 .r1 5), (0x00000041ffff85db, .stxAtomicDwOrFetch .r5 .r8 (-1)),
      (0x00000051001058c3, .stxAtomicWAndFetch .r8 .r5 16),
      (0x00000051ff0021db, .stxAtomicDwAndFetch .r1 .r2 (-256)),
      (0x000000a1123494c3, .stxAtomicWXorFetch .r4 .r9 4660),
      (0x000000a1fff867db, .stxAtomicDwXorFetch .r7 .r6 (-8)), (0x000000e17fff30c3, .stxAtomicWXchg .r0 .r3 32767),
      (0x000000e1800003db, .stxAtomicDwXchg .r3 .r0 (-32768)), (0x000000f1000576c3, .stxAtomicWCmpxchg .r6 .r7 5),
      (0x000000f1ffff49db, .stxAtomicDwCmpxchg .r9 .r4 (-1))] : List (Nat × Instr)),
    decodeTableWord 64 p.1 = some p.2 := by decide +kernel

/-- IMM, DW, LD: every constructor from a word written out from its row. -/
theorem test_decode_imm64 : ∀ p ∈ (
    [(0x11223344000000000000ff0000000218, .ldImm64 .r2 65280 287454020),
      (0x0000000000000000000055aa00001518, .ldMapByFd .r5 21930),
      (0x8000000000000000000055aa00002818, .ldMapValByFd .r8 21930 (-2147483648)),
      (0x00000000000000001122334400003118, .ldVarAddr .r1 287454020),
      (0x00000000000000001122334400004418, .ldCodeAddr .r4 287454020),
      (0x0000000000000000ffffffff00005718, .ldMapByIdx .r7 (-1)),
      (0x0000ff0000000000ffffffff00006018, .ldMapValByIdx .r0 (-1) 65280)] : List (Nat × Instr)),
    decodeTableWord 128 p.1 = some p.2 := by decide +kernel

/-- LD with mode ABS or IND: every constructor from a word written out from its row. -/
theorem test_decode_packet : ∀ p ∈ (
    [(0x8000000000000020, .ldAbsW (-2147483648)), (0x8000000000000028, .ldAbsH (-2147483648)),
      (0x7fffffff00000030, .ldAbsB 2147483647), (0x7fffffff00005040, .ldIndW .r5 2147483647),
      (0x0000000700001048, .ldIndH .r1 7), (0x0000000700008050, .ldIndB .r8 7)] : List (Nat × Instr)),
    decodeTableWord 64 p.1 = some p.2 := by decide +kernel

/-- Words that name no instruction: an unused field set, an undefined selector, an undefined 'opcode', register 11, a
write to R10, a wide instruction whose second slot is not zero below 'next_imm'. -/
theorem test_decode_refused : ∀ w ∈ ([0x0000000500002107, 0x0000000300020137, 0x00000000000001e7, 0x0000000000000b07,
    0x0000000000000abf, 0x0000001000000000000000010000010018] : List Nat), decodeTableWord 64 w = none := by decide +kernel

/-- The first step after reset runs the instruction that `withFetchWord` places. -/
theorem test_withFetchWord : (State.reset.withFetchWord 64 0x00000005000001b7).program =
    encode .little (.alu64MovK .r1 5) ++ [0] := by decide +kernel

/-! ### One step on the vectors of the spec -/

/-- The step goes on with these R0 to R2, data memory and program counter. -/
def endsIn (r : StepResult) (r0 r1 r2 : Option Word) (m : Memory) (pc : Nat) : Bool :=
  match r with
  | .next t => t.reg .r0 == r0 && t.reg .r1 == r1 && t.reg .r2 == r2 && t.mem == m && t.pc == pc && t.status == .running
  | _ => false

/-- The start of a vector: the instruction, then seven slots `r0 = 0`; one region at 0x1000, of which only the bytes
that the vector touches are listed; R10 at 0x8000. -/
def vectorState (e : Endian) (program : List Slot) (r0 r1 r2 : Option Word) (m : Memory) : State :=
  { State.entry { Params.default with hostEndian := e, regions := [⟨0x1000, 256, true, true, true, false⟩] }
      (program ++ List.replicate 7 ((Instr.fields (.alu64MovK .r0 0)).toSlot e)) m with
    regs := ⟨r0, r1, r2, none, none, none, none, none, none, none, some 0x8000⟩ }

/-- Arithmetic vectors of 95_test_vectors.md (A1 and on): the host, the instruction, R1 and R2 before, R1 after. -/
def aluVectors : List (Endian × Slot × Option Word × Option Word × Word) :=
    [(.little, 0x000000000000210c, some 0xffffffffffffffff, some 0x1, 0x0),
      (.little, 0x000000000000210f, some 0xffffffffffffffff, some 0x1, 0x0),
      (.little, 0xffffffff00000107, some 0x0, none, 0xffffffffffffffff),
      (.little, 0xffffffff00000104, some 0x0, none, 0xffffffff),
      (.little, 0x000000000000211f, some 0x0, some 0x1, 0xffffffffffffffff),
      (.little, 0x0000000100000114, some 0xaaaaaaaa00000000, none, 0xffffffff),
      (.little, 0x000000000000212f, some 0xffffffffffffffff, some 0xffffffffffffffff, 0x1),
      (.little, 0x000000000000212c, some 0x80000000, some 0x2, 0x0),
      (.little, 0x000000000000213f, some 0x64, some 0x0, 0x0),
      (.little, 0x000000000000213c, some 0xaaaaaaaa00000064, some 0x100000000, 0x0),
      (.little, 0xffffffff00000137, some 0xfffffffffffffffe, none, 0x0),
      (.little, 0xffffffff00000134, some 0xffffffff, none, 0x1),
      (.little, 0x0000000300000137, some 0xfffffffffffffff3, none, 0x5555555555555551),
      (.little, 0x0000000300010137, some 0xfffffffffffffff3, none, 0xfffffffffffffffc),
      (.little, 0x000000000001213f, some 0xd, some 0xfffffffffffffffd, 0xfffffffffffffffc),
      (.little, 0x000000000001213f, some 0x8000000000000000, some 0xffffffffffffffff, 0x8000000000000000),
      (.little, 0x000000000001213c, some 0x80000000, some 0xffffffff, 0x80000000),
      (.little, 0x000000000001213c, some 0xfffffff3, some 0x0, 0x0),
      (.little, 0x000000000000219f, some 0xaaaaaaaa00000007, some 0x0, 0xaaaaaaaa00000007),
      (.little, 0x000000000000219c, some 0xaaaaaaaa00000007, some 0x0, 0x7),
      (.little, 0x0000000300000197, some 0xd, none, 0x1),
      (.little, 0x0000000300010197, some 0xfffffffffffffff3, none, 0xffffffffffffffff),
      (.little, 0xfffffffd00010197, some 0xd, none, 0x1),
      (.little, 0x0000000300010194, some 0xfffffff3, none, 0xffffffff),
      (.little, 0x000000000001219f, some 0x8000000000000000, some 0xffffffffffffffff, 0x0),
      (.little, 0x000000000001219c, some 0xaaaaaaaafffffff3, some 0x0, 0xfffffff3),
      (.little, 0x8000000000000147, some 0x1, none, 0xffffffff80000001),
      (.little, 0x8000000000000144, some 0x1, none, 0x80000001),
      (.little, 0xfffffff000000157, some 0x123456789abcdeff, none, 0x123456789abcdef0),
      (.little, 0x000000000000215c, some 0x123456789abcdeff, some 0xffffffff0000ffff, 0xdeff),
      (.little, 0xffffffff000001a7, some 0xff00ff00ff00ff, none, 0xff00ff00ff00ff00),
      (.little, 0xffffffff000001a4, some 0xff00ff00ff00ff, none, 0xff00ff00),
      (.little, 0x000000000000216f, some 0x1, some 0x40, 0x1),
      (.little, 0x000000000000216f, some 0x1, some 0x7f, 0x8000000000000000),
      (.little, 0x0000002100000164, some 0xaaaaaaaa00000001, none, 0x2)]

/-- The rest of them, and the byte swap vectors (E65 to E82). -/
def aluVectors2 : List (Endian × Slot × Option Word × Option Word × Word) :=
    [(.little, 0x0000000400000177, some 0x8000000000000000, none, 0x800000000000000),
      (.little, 0x000000000000217c, some 0xffffffff80000000, some 0xffffff24, 0x8000000),
      (.little, 0x00000004000001c7, some 0x8000000000000000, none, 0xf800000000000000),
      (.little, 0x00000004000001c4, some 0x80000000, none, 0xf8000000),
      (.little, 0x0000001f000001c4, some 0xffffffff7fffffff, none, 0x0),
      (.little, 0x0000000000000187, some 0x8000000000000000, none, 0x8000000000000000),
      (.little, 0x0000000000000184, some 0xaaaaaaaa00000001, none, 0xffffffff),
      (.little, 0x0000000000000187, some 0x0, none, 0x0),
      (.little, 0xfffffffe000001b7, none, none, 0xfffffffffffffffe),
      (.little, 0xfffffffe000001b4, none, none, 0xfffffffe),
      (.little, 0x00000000000021bf, none, some 0x123456789abcdef0, 0x123456789abcdef0),
      (.little, 0x00000000000021bc, none, some 0x123456789abcdef0, 0x9abcdef0),
      (.little, 0x00000000000821bf, none, some 0x1234567800000080, 0xffffffffffffff80),
      (.little, 0x00000000001021bf, none, some 0x1234567800007fff, 0x7fff),
      (.little, 0x00000000002021bf, none, some 0x1234567880000000, 0xffffffff80000000),
      (.little, 0x00000000000821bc, none, some 0x1234567800000080, 0xffffff80),
      (.little, 0x00000000001021bc, none, some 0x123456780000fffe, 0xfffffffe),
      (.little, 0x000000000000110f, some 0x15, none, 0x2a),
      (.little, 0x00000010000001d4, some 0x123456789abcdef, none, 0xcdef),
      (.little, 0x00000020000001d4, some 0x123456789abcdef, none, 0x89abcdef),
      (.little, 0x00000040000001d4, some 0x123456789abcdef, none, 0x123456789abcdef),
      (.little, 0x00000010000001dc, some 0x123456789abcdef, none, 0xefcd),
      (.little, 0x00000020000001dc, some 0x123456789abcdef, none, 0xefcdab89),
      (.little, 0x00000040000001dc, some 0x123456789abcdef, none, 0xefcdab8967452301),
      (.little, 0x00000010000001d7, some 0x123456789abcdef, none, 0xefcd),
      (.little, 0x00000020000001d7, some 0x123456789abcdef, none, 0xefcdab89),
      (.little, 0x00000040000001d7, some 0x123456789abcdef, none, 0xefcdab8967452301),
      (.big, 0x10000000000010d4, some 0x123456789abcdef, none, 0xefcd),
      (.big, 0x20000000000010d4, some 0x123456789abcdef, none, 0xefcdab89),
      (.big, 0x40000000000010d4, some 0x123456789abcdef, none, 0xefcdab8967452301),
      (.big, 0x10000000000010dc, some 0x123456789abcdef, none, 0xcdef),
      (.big, 0x20000000000010dc, some 0x123456789abcdef, none, 0x89abcdef),
      (.big, 0x40000000000010dc, some 0x123456789abcdef, none, 0x123456789abcdef),
      (.big, 0x10000000000010d7, some 0x123456789abcdef, none, 0xefcd),
      (.big, 0x20000000000010d7, some 0x123456789abcdef, none, 0xefcdab89),
      (.big, 0x40000000000010d7, some 0x123456789abcdef, none, 0xefcdab8967452301)]

/-- The step of an arithmetic vector ends as the vector says. -/
def aluEnds (v : Endian × Slot × Option Word × Option Word × Word) : Bool :=
  endsIn (step (vectorState v.1 [v.2.1] none v.2.2.1 v.2.2.2.1 [])) none (some v.2.2.2.2) v.2.2.2.1 [] 1

theorem test_alu_vectors : aluVectors.all aluEnds = true := by decide +kernel

theorem test_alu_vectors_2 : aluVectors2.all aluEnds = true := by decide +kernel

/-- Jump vectors (J83 to J116): the instruction, R1 and R2, the program counter after. -/
def jumpVectors : List (Slot × Option Word × Option Word × Nat) :=
    [(0x0000000000030005, none, none, 4), (0x0000000000000005, none, none, 1), (0x0000000600000006, none, none, 7),
      (0x000000000002211d, some 0x100000005, some 0x5, 1), (0x000000000002211e, some 0x100000005, some 0x5, 3),
      (0xffffffff00020115, some 0xffffffffffffffff, none, 3), (0xffffffff00020115, some 0xffffffff, none, 1),
      (0xffffffff00020116, some 0xffffffff, none, 3), (0x000000000002212d, some 0xffffffffffffffff, some 0x1, 3),
      (0x000000000002216d, some 0xffffffffffffffff, some 0x1, 1), (0x000000000002212d, some 0x5, some 0x5, 1),
      (0x000000000002213d, some 0x5, some 0x5, 3), (0x00000000000221ad, some 0x1, some 0xffffffffffffffff, 3),
      (0x00000000000221cd, some 0x1, some 0xffffffffffffffff, 1), (0x00000005000201b5, some 0x5, none, 3),
      (0xffffffff000201d5, some 0x8000000000000000, none, 3), (0x000000000002217e, some 0x80000000, some 0x0, 1),
      (0x000000000002217d, some 0x80000000, some 0x0, 3), (0xffffffff00020166, some 0xffffffff00000000, none, 3),
      (0x8000000000020145, some 0x100000000, none, 3), (0x8000000000020146, some 0x100000000, none, 1),
      (0x000000000002214d, some 0xf0, some 0xf, 1), (0x000000000002115d, some 0x7, none, 1),
      (0x0000000000640155, some 0x0, none, 1)]

theorem test_jump_vectors : (jumpVectors.all fun v =>
    endsIn (step (vectorState .little [v.1] none v.2.1 v.2.2.1 [])) none v.2.1 v.2.2.1 [] v.2.2.2) = true := by decide +kernel

/-- Load, store and atomic vectors (M126 to M167, T170 to T181): the host, the instruction, R0 to R2 and the bytes of
memory before, R0 to R2 and the bytes after. -/
def memoryVectors : List (Endian × Slot × (Option Word × Option Word × Option Word × Memory) ×
    (Option Word × Option Word × Option Word) × Memory) :=
    [(.little, 0x0000000000002171, (none, none, some 0x1000,
        [(0x1000, 0x88), (0x1001, 0x99), (0x1002, 0xaa), (0x1003, 0xbb), (0x1004, 0xcc), (0x1005, 0xdd), (0x1006, 0xee), (0x1007, 0xff)]),
      (none, some 0x88, some 0x1000),
        [(0x1000, 0x88), (0x1001, 0x99), (0x1002, 0xaa), (0x1003, 0xbb), (0x1004, 0xcc), (0x1005, 0xdd), (0x1006, 0xee), (0x1007, 0xff)]),
      (.little, 0x0000000000002169, (none, none, some 0x1000,
        [(0x1000, 0x88), (0x1001, 0x99), (0x1002, 0xaa), (0x1003, 0xbb), (0x1004, 0xcc), (0x1005, 0xdd), (0x1006, 0xee), (0x1007, 0xff)]),
      (none, some 0x9988, some 0x1000),
        [(0x1000, 0x88), (0x1001, 0x99), (0x1002, 0xaa), (0x1003, 0xbb), (0x1004, 0xcc), (0x1005, 0xdd), (0x1006, 0xee), (0x1007, 0xff)]),
      (.little, 0x0000000000002161, (none, none, some 0x1000,
        [(0x1000, 0x88), (0x1001, 0x99), (0x1002, 0xaa), (0x1003, 0xbb), (0x1004, 0xcc), (0x1005, 0xdd), (0x1006, 0xee), (0x1007, 0xff)]),
      (none, some 0xbbaa9988, some 0x1000),
        [(0x1000, 0x88), (0x1001, 0x99), (0x1002, 0xaa), (0x1003, 0xbb), (0x1004, 0xcc), (0x1005, 0xdd), (0x1006, 0xee), (0x1007, 0xff)]),
      (.little, 0x0000000000002179, (none, none, some 0x1000,
        [(0x1000, 0x88), (0x1001, 0x99), (0x1002, 0xaa), (0x1003, 0xbb), (0x1004, 0xcc), (0x1005, 0xdd), (0x1006, 0xee), (0x1007, 0xff)]),
      (none, some 0xffeeddccbbaa9988, some 0x1000),
        [(0x1000, 0x88), (0x1001, 0x99), (0x1002, 0xaa), (0x1003, 0xbb), (0x1004, 0xcc), (0x1005, 0xdd), (0x1006, 0xee), (0x1007, 0xff)]),
      (.little, 0x0000000000002191, (none, none, some 0x1000,
        [(0x1000, 0x88), (0x1001, 0x99), (0x1002, 0xaa), (0x1003, 0xbb), (0x1004, 0xcc), (0x1005, 0xdd), (0x1006, 0xee), (0x1007, 0xff)]),
      (none, some 0xffffffffffffff88, some 0x1000),
        [(0x1000, 0x88), (0x1001, 0x99), (0x1002, 0xaa), (0x1003, 0xbb), (0x1004, 0xcc), (0x1005, 0xdd), (0x1006, 0xee), (0x1007, 0xff)]),
      (.little, 0x0000000000002189, (none, none, some 0x1000,
        [(0x1000, 0x88), (0x1001, 0x99), (0x1002, 0xaa), (0x1003, 0xbb), (0x1004, 0xcc), (0x1005, 0xdd), (0x1006, 0xee), (0x1007, 0xff)]),
      (none, some 0xffffffffffff9988, some 0x1000),
        [(0x1000, 0x88), (0x1001, 0x99), (0x1002, 0xaa), (0x1003, 0xbb), (0x1004, 0xcc), (0x1005, 0xdd), (0x1006, 0xee), (0x1007, 0xff)]),
      (.little, 0x0000000000002181, (none, none, some 0x1000,
        [(0x1000, 0x88), (0x1001, 0x99), (0x1002, 0xaa), (0x1003, 0xbb), (0x1004, 0xcc), (0x1005, 0xdd), (0x1006, 0xee), (0x1007, 0xff)]),
      (none, some 0xffffffffbbaa9988, some 0x1000),
        [(0x1000, 0x88), (0x1001, 0x99), (0x1002, 0xaa), (0x1003, 0xbb), (0x1004, 0xcc), (0x1005, 0xdd), (0x1006, 0xee), (0x1007, 0xff)]),
      (.little, 0x000000000002216b, (none, some 0x1000, some 0x1122334455667788,
        [(0x1002, 0x0), (0x1003, 0x0)]),
      (none, some 0x1000, some 0x1122334455667788),
        [(0x1002, 0x88), (0x1003, 0x77)]),
      (.little, 0x0000000000042163, (none, some 0x1000, some 0x1122334455667788,
        [(0x1004, 0x0), (0x1005, 0x0), (0x1006, 0x0), (0x1007, 0x0)]),
      (none, some 0x1000, some 0x1122334455667788),
        [(0x1004, 0x88), (0x1005, 0x77), (0x1006, 0x66), (0x1007, 0x55)]),
      (.little, 0x000000000008217b, (none, some 0x1000, some 0x1122334455667788,
        [(0x1008, 0x0), (0x1009, 0x0), (0x100a, 0x0), (0x100b, 0x0), (0x100c, 0x0), (0x100d, 0x0), (0x100e, 0x0), (0x100f, 0x0)]),
      (none, some 0x1000, some 0x1122334455667788),
        [(0x1008, 0x88), (0x1009, 0x77), (0x100a, 0x66), (0x100b, 0x55), (0x100c, 0x44), (0x100d, 0x33), (0x100e, 0x22), (0x100f, 0x11)]),
      (.little, 0xfffffffe0010017a, (none, some 0x1000, none,
        [(0x1010, 0x0), (0x1011, 0x0), (0x1012, 0x0), (0x1013, 0x0), (0x1014, 0x0), (0x1015, 0x0), (0x1016, 0x0), (0x1017, 0x0)]),
      (none, some 0x1000, none),
        [(0x1010, 0xfe), (0x1011, 0xff), (0x1012, 0xff), (0x1013, 0xff), (0x1014, 0xff), (0x1015, 0xff), (0x1016, 0xff), (0x1017, 0xff)]),
      (.little, 0xfffffffe00180162, (none, some 0x1000, none,
        [(0x1018, 0x0), (0x1019, 0x0), (0x101a, 0x0), (0x101b, 0x0)]),
      (none, some 0x1000, none),
        [(0x1018, 0xfe), (0x1019, 0xff), (0x101a, 0xff), (0x101b, 0xff)]),
      (.big, 0x0000000000001271, (none, none, some 0x1000,
        [(0x1000, 0x88), (0x1001, 0x99), (0x1002, 0xaa), (0x1003, 0xbb), (0x1004, 0xcc), (0x1005, 0xdd), (0x1006, 0xee), (0x1007, 0xff)]),
      (none, some 0x88, some 0x1000),
        [(0x1000, 0x88), (0x1001, 0x99), (0x1002, 0xaa), (0x1003, 0xbb), (0x1004, 0xcc), (0x1005, 0xdd), (0x1006, 0xee), (0x1007, 0xff)]),
      (.big, 0x0000000000001269, (none, none, some 0x1000,
        [(0x1000, 0x88), (0x1001, 0x99), (0x1002, 0xaa), (0x1003, 0xbb), (0x1004, 0xcc), (0x1005, 0xdd), (0x1006, 0xee), (0x1007, 0xff)]),
      (none, some 0x8899, some 0x1000),
        [(0x1000, 0x88), (0x1001, 0x99), (0x1002, 0xaa), (0x1003, 0xbb), (0x1004, 0xcc), (0x1005, 0xdd), (0x1006, 0xee), (0x1007, 0xff)]),
      (.big, 0x0000000000001261, (none, none, some 0x1000,
        [(0x1000, 0x88), (0x1001, 0x99), (0x1002, 0xaa), (0x1003, 0xbb), (0x1004, 0xcc), (0x1005, 0xdd), (0x1006, 0xee), (0x1007, 0xff)]),
      (none, some 0x8899aabb, some 0x1000),
        [(0x1000, 0x88), (0x1001, 0x99), (0x1002, 0xaa), (0x1003, 0xbb), (0x1004, 0xcc), (0x1005, 0xdd), (0x1006, 0xee), (0x1007, 0xff)]),
      (.big, 0x0000000000001279, (none, none, some 0x1000,
        [(0x1000, 0x88), (0x1001, 0x99), (0x1002, 0xaa), (0x1003, 0xbb), (0x1004, 0xcc), (0x1005, 0xdd), (0x1006, 0xee), (0x1007, 0xff)]),
      (none, some 0x8899aabbccddeeff, some 0x1000),
        [(0x1000, 0x88), (0x1001, 0x99), (0x1002, 0xaa), (0x1003, 0xbb), (0x1004, 0xcc), (0x1005, 0xdd), (0x1006, 0xee), (0x1007, 0xff)]),
      (.big, 0x0000000000001291, (none, none, some 0x1000,
        [(0x1000, 0x88), (0x1001, 0x99), (0x1002, 0xaa), (0x1003, 0xbb), (0x1004, 0xcc), (0x1005, 0xdd), (0x1006, 0xee), (0x1007, 0xff)]),
      (none, some 0xffffffffffffff88, some 0x1000),
        [(0x1000, 0x88), (0x1001, 0x99), (0x1002, 0xaa), (0x1003, 0xbb), (0x1004, 0xcc), (0x1005, 0xdd), (0x1006, 0xee), (0x1007, 0xff)]),
      (.big, 0x0000000000001289, (none, none, some 0x1000,
        [(0x1000, 0x88), (0x1001, 0x99), (0x1002, 0xaa), (0x1003, 0xbb), (0x1004, 0xcc), (0x1005, 0xdd), (0x1006, 0xee), (0x1007, 0xff)]),
      (none, some 0xffffffffffff8899, some 0x1000),
        [(0x1000, 0x88), (0x1001, 0x99), (0x1002, 0xaa), (0x1003, 0xbb), (0x1004, 0xcc), (0x1005, 0xdd), (0x1006, 0xee), (0x1007, 0xff)]),
      (.big, 0x0000000000001281, (none, none, some 0x1000,
        [(0x1000, 0x88), (0x1001, 0x99), (0x1002, 0xaa), (0x1003, 0xbb), (0x1004, 0xcc), (0x1005, 0xdd), (0x1006, 0xee), (0x1007, 0xff)]),
      (none, some 0xffffffff8899aabb, some 0x1000),
        [(0x1000, 0x88), (0x1001, 0x99), (0x1002, 0xaa), (0x1003, 0xbb), (0x1004, 0xcc), (0x1005, 0xdd), (0x1006, 0xee), (0x1007, 0xff)]),
      (.big, 0x000000000200126b, (none, some 0x1000, some 0x1122334455667788,
        [(0x1002, 0x0), (0x1003, 0x0)]),
      (none, some 0x1000, some 0x1122334455667788),
        [(0x1002, 0x77), (0x1003, 0x88)]),
      (.big, 0x0000000004001263, (none, some 0x1000, some 0x1122334455667788,
        [(0x1004, 0x0), (0x1005, 0x0), (0x1006, 0x0), (0x1007, 0x0)]),
      (none, some 0x1000, some 0x1122334455667788),
        [(0x1004, 0x55), (0x1005, 0x66), (0x1006, 0x77), (0x1007, 0x88)]),
      (.big, 0x000000000800127b, (none, some 0x1000, some 0x1122334455667788,
        [(0x1008, 0x0), (0x1009, 0x0), (0x100a, 0x0), (0x100b, 0x0), (0x100c, 0x0), (0x100d, 0x0), (0x100e, 0x0), (0x100f, 0x0)]),
      (none, some 0x1000, some 0x1122334455667788),
        [(0x1008, 0x11), (0x1009, 0x22), (0x100a, 0x33), (0x100b, 0x44), (0x100c, 0x55), (0x100d, 0x66), (0x100e, 0x77), (0x100f, 0x88)]),
      (.big, 0xfeffffff1000107a, (none, some 0x1000, none,
        [(0x1010, 0x0), (0x1011, 0x0), (0x1012, 0x0), (0x1013, 0x0), (0x1014, 0x0), (0x1015, 0x0), (0x1016, 0x0), (0x1017, 0x0)]),
      (none, some 0x1000, none),
        [(0x1010, 0xff), (0x1011, 0xff), (0x1012, 0xff), (0x1013, 0xff), (0x1014, 0xff), (0x1015, 0xff), (0x1016, 0xff), (0x1017, 0xfe)]),
      (.big, 0xfeffffff18001062, (none, some 0x1000, none,
        [(0x1018, 0x0), (0x1019, 0x0), (0x101a, 0x0), (0x101b, 0x0)]),
      (none, some 0x1000, none),
        [(0x1018, 0xff), (0x1019, 0xff), (0x101a, 0xff), (0x101b, 0xfe)]),
      (.little, 0x0000000000002173, (none, some 0x1000, some 0x1ff,
        [(0x1000, 0x0)]),
      (none, some 0x1000, some 0x1ff),
        [(0x1000, 0xff)]),
      (.little, 0x0000123400010172, (none, some 0x1000, none,
        [(0x1001, 0x0)]),
      (none, some 0x1000, none),
        [(0x1001, 0x34)]),
      (.little, 0x123456780002016a, (none, some 0x1000, none,
        [(0x1002, 0x0), (0x1003, 0x0)]),
      (none, some 0x1000, none),
        [(0x1002, 0x78), (0x1003, 0x56)]),
      (.little, 0x00000000001021c3, (none, some 0x1000, some 0xffffffffffffffff,
        [(0x1010, 0x3), (0x1011, 0x0), (0x1012, 0x0), (0x1013, 0x0), (0x1014, 0x5), (0x1015, 0x0), (0x1016, 0x0), (0x1017, 0x0)]),
      (none, some 0x1000, some 0xffffffffffffffff),
        [(0x1010, 0x2), (0x1011, 0x0), (0x1012, 0x0), (0x1013, 0x0), (0x1014, 0x5), (0x1015, 0x0), (0x1016, 0x0), (0x1017, 0x0)]),
      (.little, 0x00000000001021db, (none, some 0x1000, some 0xffffffffffffffff,
        [(0x1010, 0x3), (0x1011, 0x0), (0x1012, 0x0), (0x1013, 0x0), (0x1014, 0x5), (0x1015, 0x0), (0x1016, 0x0), (0x1017, 0x0)]),
      (none, some 0x1000, some 0xffffffffffffffff),
        [(0x1010, 0x2), (0x1011, 0x0), (0x1012, 0x0), (0x1013, 0x0), (0x1014, 0x5), (0x1015, 0x0), (0x1016, 0x0), (0x1017, 0x0)]),
      (.little, 0x00000041001421c3, (none, some 0x1000, some 0xaaaaaaaa000000f0,
        [(0x1010, 0x3), (0x1011, 0x0), (0x1012, 0x0), (0x1013, 0x0), (0x1014, 0x5), (0x1015, 0x0), (0x1016, 0x0), (0x1017, 0x0)]),
      (none, some 0x1000, some 0x5),
        [(0x1010, 0x3), (0x1011, 0x0), (0x1012, 0x0), (0x1013, 0x0), (0x1014, 0xf5), (0x1015, 0x0), (0x1016, 0x0), (0x1017, 0x0)]),
      (.little, 0x00000001001011db, (none, some 0x1000, none,
        [(0x1010, 0x3), (0x1011, 0x0), (0x1012, 0x0), (0x1013, 0x0), (0x1014, 0x5), (0x1015, 0x0), (0x1016, 0x0), (0x1017, 0x0)]),
      (none, some 0x500000003, none),
        [(0x1010, 0x3), (0x1011, 0x10), (0x1012, 0x0), (0x1013, 0x0), (0x1014, 0x5), (0x1015, 0x0), (0x1016, 0x0), (0x1017, 0x0)]),
      (.little, 0x000000e1001021db, (none, some 0x1000, some 0x1122334455667788,
        [(0x1010, 0x3), (0x1011, 0x0), (0x1012, 0x0), (0x1013, 0x0), (0x1014, 0x5), (0x1015, 0x0), (0x1016, 0x0), (0x1017, 0x0)]),
      (none, some 0x1000, some 0x500000003),
        [(0x1010, 0x88), (0x1011, 0x77), (0x1012, 0x66), (0x1013, 0x55), (0x1014, 0x44), (0x1015, 0x33), (0x1016, 0x22), (0x1017, 0x11)]),
      (.little, 0x000000f1001021c3, (some 0xffffffff00000003, some 0x1000, some 0x9,
        [(0x1010, 0x3), (0x1011, 0x0), (0x1012, 0x0), (0x1013, 0x0), (0x1014, 0x5), (0x1015, 0x0), (0x1016, 0x0), (0x1017, 0x0)]),
      (some 0x3, some 0x1000, some 0x9),
        [(0x1010, 0x9), (0x1011, 0x0), (0x1012, 0x0), (0x1013, 0x0), (0x1014, 0x5), (0x1015, 0x0), (0x1016, 0x0), (0x1017, 0x0)]),
      (.little, 0x000000f1001021c3, (some 0x4, some 0x1000, some 0x9,
        [(0x1010, 0x3), (0x1011, 0x0), (0x1012, 0x0), (0x1013, 0x0), (0x1014, 0x5), (0x1015, 0x0), (0x1016, 0x0), (0x1017, 0x0)]),
      (some 0x3, some 0x1000, some 0x9),
        [(0x1010, 0x3), (0x1011, 0x0), (0x1012, 0x0), (0x1013, 0x0), (0x1014, 0x5), (0x1015, 0x0), (0x1016, 0x0), (0x1017, 0x0)]),
      (.little, 0x000000f1001021db, (some 0x3, some 0x1000, some 0x9,
        [(0x1010, 0x3), (0x1011, 0x0), (0x1012, 0x0), (0x1013, 0x0), (0x1014, 0x5), (0x1015, 0x0), (0x1016, 0x0), (0x1017, 0x0)]),
      (some 0x500000003, some 0x1000, some 0x9),
        [(0x1010, 0x3), (0x1011, 0x0), (0x1012, 0x0), (0x1013, 0x0), (0x1014, 0x5), (0x1015, 0x0), (0x1016, 0x0), (0x1017, 0x0)]),
      (.little, 0x000000f1001001db, (some 0x500000003, some 0x1000, none,
        [(0x1010, 0x3), (0x1011, 0x0), (0x1012, 0x0), (0x1013, 0x0), (0x1014, 0x5), (0x1015, 0x0), (0x1016, 0x0), (0x1017, 0x0)]),
      (some 0x500000003, some 0x1000, none),
        [(0x1010, 0x3), (0x1011, 0x0), (0x1012, 0x0), (0x1013, 0x0), (0x1014, 0x5), (0x1015, 0x0), (0x1016, 0x0), (0x1017, 0x0)])]

theorem test_memory_vectors : (memoryVectors.all fun v =>
    endsIn (step (vectorState v.1 [v.2.1] v.2.2.1.1 v.2.2.1.2.1 v.2.2.1.2.2.1 v.2.2.1.2.2.2))
      v.2.2.2.1.1 v.2.2.2.1.2.1 v.2.2.2.1.2.2 v.2.2.2.2 1) = true := by decide +kernel

/-- 64-bit immediate vectors (I187, I188): the two slots, R1 after. -/
def imm64Vectors : List (Slot × Slot × Word) :=
    [(0x89abcdef00000118, 0x0123456700000000, 0x123456789abcdef),
      (0xffffffff00000118, 0x0000000000000000, 0xffffffff)]

theorem test_imm64_vectors : (imm64Vectors.all fun v =>
    endsIn (step (vectorState .little [v.1, v.2.1] none none none [])) none (some v.2.2) none [] 2) = true := by decide +kernel


/-! ### States and operands that meet the hypotheses of the obligations -/

/-- The state after reset with a program, some registers and some memory. -/
def start (is : List Instr) (rs : List (Reg × Word)) (m : Memory) : State :=
  rs.foldl (fun s r => s.setReg r.1 r.2) { State.reset with program := is.flatMap (encode .little), mem := m }

/-- The state after reset with the given slots as its program. -/
def withSlots (slots : List Slot) : State := { State.reset with program := slots }

/-- A state in which a register holds no value. -/
def unset (s : State) (r : Reg) : State := { s with regs := s.regs.set r none }

/-- Two operands, in R1 and R2. -/
def operands (a b : Word) : State := start [] [(.r1, a), (.r2, b)] []

/-- A wide instruction in the middle: slots 0 and 3 start instructions, slot 2 is a second slot. -/
def wideMiddle : List Instr := [.jmpJa 0, .ldImm64 .r1 1 2, .jmpExit]

/-- Two helpers: 1 stores its second argument at the address in its first and returns their sum, 2 always fails. -/
def withHelpers (s : State) : State :=
  { s with params := { s.params with
      helpers := [(1, ⟨2, .computed (.add (.arg 0) (.arg 1)) [(.arg 0, .arg 1)]⟩), (2, ⟨0, .fails 7⟩)]
      btfHelpers := [(1, ⟨1, .computed (.arg 0) []⟩), (2, ⟨5, .fails 9⟩)] } }

/-- Every platform function defined somewhere. -/
def withPlatform (s : State) : State :=
  { s with params := { s.params with
      mapByFd := [(3, 0x2000)], mapByIdx := [(4, 0x2000)], mapVal := [(0x2000, 0x3000)]
      varAddr := [(5, 0x4000)], codeAddr := [((0, 6), 0x5000)] } }

/-- A packet of eight bytes. -/
def withPacket (s : State) : State :=
  { s with params := { s.params with packet := .linux [0x45, 0, 0, 0x54, 0xde, 0xad, 0xbe, 0xef] } }

/-- A saved frame of the function at depth 0. -/
def outer : Frame := ⟨3, some 6, some 7, none, some 9, some 0x8000⟩

/-- The state inside a function at depth 1. -/
def inner (s : State) : State := { s.setReg .r10 0x7e00 with frames := [outer] }

/-- The bytes 01 to 08 at the top of the frame of depth 0. -/
def eightBytes : Memory :=
  [(0x7ff8, 1), (0x7ff9, 2), (0x7ffa, 3), (0x7ffb, 4), (0x7ffc, 5), (0x7ffd, 6), (0x7ffe, 7), (0x7fff, 0x88)]

theorem witness_DecodeUndoesEncode : (Instr.alu64AddX .r9 .r10).WellFormed Params.default ∧
    (Instr.ldImm64 .r9 1 2).WellFormed Params.default ∧ (Instr.jmpJeqK .r10 (-1) (-1)).WellFormed Params.default ∧
    Instr.jmpExit.WellFormed base32Only ∧
    (Instr.alu64MovX .r10 .r1).WellFormed { Params.default with r10ReadOnly := false } := by decide

theorem witness_EncodeUndoesDecode :
    decodeBytes Params.default [0x0f, 0x21, 0, 0, 0, 0, 0, 0, 0x95, 0] = .ok (.alu64AddX .r1 .r2, [0x95, 0]) ∧
    decodeBytes Params.default [0x18, 0x11, 0, 0, 3, 0, 0, 0, 0, 0, 0, 0, 0, 0, 0, 0] = .ok (.ldMapByFd .r1 3, []) := ⟨rfl, rfl⟩

theorem witness_StepRunsTheDecodedInstruction : (start [.alu64MovK .r1 5] [] []).status = .running ∧
    decodeAt (start [.alu64MovK .r1 5] [] []) 0 = .ok (.alu64MovK .r1 5) := ⟨rfl, rfl⟩

theorem witness_StepRunsTheEncodedInstruction_encoded : (start wideMiddle [] []).status = .running ∧
    0 < (start wideMiddle [] []).program.length ∧ isSecondSlot (start wideMiddle [] []).program 0 = false ∧
    (Instr.jmpJa 0).WellFormed (start wideMiddle [] []).params ∧
    encode .little (.jmpJa 0) <+: (start wideMiddle [] []).program.drop 0 := by decide +kernel

/-- A slot of zeros is the encoding of no instruction. -/
theorem not_encoded_zero (i : Instr) : ¬encode .little i <+: [0] := by
  intro h
  have ho : i.fields.opcode = 0 := by
    have hh : i.fields.toSlot .little = 0 := by
      unfold encode at h
      split at h <;> simpa using (List.cons_prefix_cons.mp h).1
    rw [← Fields.ofSlot_toSlot .little i.fields, hh]
    rfl
  cases i <;> exact absurd (congrArg BitVec.toNat ho) (by simp [Instr.fields, fieldsDst, fieldsDstImm, fieldsDstSrc,
    fieldsDstSrcOff, fieldsDstOffImm, fieldsImm])

theorem witness_StepRunsTheEncodedInstruction_notEncoded : (withSlots [0]).status = .running ∧
    0 < (withSlots [0]).program.length ∧ isSecondSlot (withSlots [0]).program 0 = false ∧
    ∀ i : Instr, i.WellFormed (withSlots [0]).params → ¬encode .little i <+: (withSlots [0]).program.drop 0 :=
  ⟨rfl, by decide, rfl, fun i _ => not_encoded_zero i⟩

/-- Every cause at slot 0 of a running machine: an undefined 'opcode', R11 and R15, a missing second slot, one that is not zero. -/
theorem witness_IllegalInstructionCauses_fields : (([0x00, 0x0b07, 0xf10f, 0x0118] : List Slot).all fun w => decide (
    (withSlots [w]).status = .running ∧ (withSlots [w]).program[0]? = some w ∧
    isSecondSlot (withSlots [w]).program 0 = false ∧
    ((Fields.ofSlot .little w).opcode ∉ Expected.opcodes ∨ 10 < (Fields.ofSlot .little w).dst.toNat ∨
      10 < (Fields.ofSlot .little w).src.toNat ∨
      ((Fields.ofSlot .little w).opcode = 0x18 ∧ (withSlots [w]).program.length = 0 + 1)))) = true := by
  decide +kernel

theorem witness_IllegalInstructionCauses_second :
    isSecondSlot (withSlots [0x0118, 0x1000000]).program 0 = false ∧ (Fields.ofSlot .little 0x0118).opcode = 0x18 ∧
    (withSlots [0x0118, 0x1000000]).program[0 + 1]? = some 0x1000000 ∧
    (Fields.ofSlot .little 0x1000000).word.extractLsb' 0 32 ≠ 0 := by decide +kernel

theorem witness_IllegalInstructionCauses_platform :
    (encode .little (.alu64AddX .r1 .r2) <+: (start [.alu64AddX .r1 .r2] [] []).program.drop 0 ∧
      (Instr.alu64AddX .r1 .r2).group ∉ base32Only.groups) ∧
    encode .little (.alu64MovK .r10 1) <+: (start [.alu64MovK .r10 1] [] []).program.drop 0 ∧
      Params.reset.r10ReadOnly = true ∧ (Instr.alu64MovK .r10 1).writtenReg = some .r10 := by decide +kernel

theorem witness_FetchFaults : (start [.jmpExit] [] []).program.length ≤ 1 ∧
    2 < (start wideMiddle [] []).program.length ∧ isSecondSlot (start wideMiddle [] []).program 2 = true ∧
    ({ start wideMiddle [] [] with pc := 2 } : State).status = .running := by decide +kernel

theorem witness_StoppedMachineTakesNoStep : ({ State.reset with status := .halted 5 } : State).status = .halted 5 ∧
    ({ State.reset with status := .faulted .callDepthExceeded } : State).status = .faulted .callDepthExceeded := ⟨rfl, rfl⟩

theorem witness_EveryInstructionAnswersNext : State.reset.status = .running := rfl

theorem witness_FaultsArePrecise : ∃ t, step (start [.jmpJa 5] [] []) = .next t ∧
    t.status = .faulted (.jumpOutOfRange 6) := ⟨_, rfl, rfl⟩

theorem witness_HaltsOnlyByExitOrPacketLoad :
    (∃ t, step (start [.jmpExit] [(.r0, 7)] []) = .next t ∧ t.status = .halted 7) ∧
    (∃ t, step (withPacket (start [.ldAbsW 5] [] [])) = .next t ∧ t.status = .halted 0) ∧
    ∃ t, step (withPacket (start [.ldIndB .r2 (-3)] [(.r2, 2)] [])) = .next t ∧ t.status = .halted 0 :=
  ⟨⟨_, rfl, rfl⟩, ⟨_, rfl, rfl⟩, _, rfl, rfl⟩

theorem witness_ArithmeticFaultsOnlyOnUnwrittenRegisters :
    (Instr.alu64AddX .r1 .r2).fields.opcode &&& 7#8 = 7#8 ∧ (Instr.aluEndToBe16 .r2).fields.opcode &&& 7#8 = 4#8 ∧
    (unset State.reset .r2).status = .running ∧
    (∃ t, exec (.alu64AddX .r1 .r2) (unset State.reset .r2) = .next t ∧ t.status = .faulted (.uninitRegister .r2)) ∧
    ∃ t, exec (.aluEndToBe16 .r2) (unset State.reset .r2) = .next t ∧ t.status = .faulted (.uninitRegister .r2) :=
  ⟨rfl, rfl, rfl, ⟨_, rfl, rfl⟩, _, rfl, rfl⟩

theorem witness_UnwrittenOperandFaults :
    ((Instr.stxAtomicDwCmpxchg .r1 .r2 0).reads = [.r1, .r2] ++ .r0 :: [] ∧
      (∀ p ∈ [Reg.r1, .r2], (unset State.reset .r0).reg p ≠ none) ∧ (unset State.reset .r0).reg .r0 = none) ∧
    (Instr.stMemB .r3 0 1).reads = [] ++ .r3 :: [] ∧ (unset State.reset .r3).reg .r3 = none := by decide

theorem witness_UnwrittenOperandFaults_packet : (Instr.ldIndW .r3 0).reads = [.r3] ++ .r6 :: [] ∧
    (∀ p ∈ [Reg.r3], (unset (withPacket State.reset) .r6).reg p ≠ none) ∧
    (unset (withPacket State.reset) .r6).reg .r6 = none ∧ (Instr.ldIndW .r3 0).group = .packet ∧
    (unset (withPacket State.reset) .r6).params.packet ≠ .unsupported := by decide

/-- Refused: past the top of the frame by one byte, below it by one, at the top of the address space, misaligned; R0 and the
destination of the load hold no value. -/
theorem witness_DataAccessFaults_refused : (unset (operands 0 0x8000) .r1).reg .r2 = some 0x8000 ∧
    (unset (operands 0 0x8000) .r1).admits (effectiveAddr 0x8000 (-7)) 8 .read = false ∧
    (unset (operands 0x8000 5) .r0).reg .r1 = some 0x8000 ∧
    (∀ q ∈ (Instr.stxMemB .r1 .r2 (-513)).reads, (unset (operands 0x8000 5) .r0).reg q ≠ none) ∧
    (unset (operands 0x8000 5) .r0).admits (effectiveAddr 0x8000 (-513)) 1 .write = false ∧
    (operands 0 0).admits (effectiveAddr 0 (-1)) 2 .write = false ∧
    (∀ q ∈ (Instr.stxAtomicWAdd .r1 .r2 (-6)).reads, (unset (operands 0x8000 5) .r0).reg q ≠ none) ∧
    (∀ q ∈ (Instr.stxAtomicWCmpxchg .r1 .r2 (-6)).reads, (operands 0x8000 5).reg q ≠ none) ∧
    (operands 0x8000 5).admits (effectiveAddr 0x8000 (-6)) 4 .atomic = false := by decide +kernel

/-- Admitted, but the first or the last byte holds no value. -/
theorem witness_DataAccessFaults_uninit :
    ((start [] [(.r1, 0x7e00), (.r2, 0x7e00)] []).admits (effectiveAddr 0x7e00 0) 8 .read = true ∧
      (start [] [(.r1, 0x7e00), (.r2, 0x7e00)] []).mem.read ((effectiveAddr 0x7e00 0).toNat + 0) = none) ∧
    (start [] [(.r1, 0x8000), (.r2, 0x8000)] [(0x7ff8, 1)]).admits (effectiveAddr 0x8000 (-8)) 4 .atomic = true ∧
    (start [] [(.r1, 0x8000), (.r2, 0x8000)] [(0x7ff8, 1)]).mem.read ((effectiveAddr 0x8000 (-8)).toNat + 3) = none := by
  decide +kernel

/-- The targets -1, the length, and a second slot. -/
theorem witness_JumpTargetFaults : (operands 5 5).reg .r1 = some 5 ∧ (operands 5 5).reg .r2 = some 5 ∧
    ((0 : Int) + 1 + (-2 : BitVec 16).toInt < 0) ∧
    ((start wideMiddle [] []).program.length : Int) ≤ 0 + 1 + (3 : BitVec 16).toInt ∧
    (2 : Int) = 0 + 1 + (1 : BitVec 16).toInt ∧ 2 < (start wideMiddle [] []).program.length ∧
    isSecondSlot (start wideMiddle [] []).program 2 = true ∧
    (.jmpJleX .r1 .r2 1, (1 : BitVec 16).toInt) ∈
      ((Expected.conditionalJumps .r1 .r2 1 0 5 5).filter fun q => q.2).map fun q => (q.1, (1 : BitVec 16).toInt) := by
  decide +kernel

theorem witness_LocalCallFaults_depth :
    ({ State.reset with frames := List.replicate 8 outer } : State).params.maxCallDepth ≤
      ({ State.reset with frames := List.replicate 8 outer } : State).depth := by decide

theorem witness_LocalCallFaults_target :
    ({ start wideMiddle [] [] with frames := List.replicate 7 outer } : State).depth < Params.reset.maxCallDepth ∧
    (0 : Int) + 1 + (-2 : Word32).toInt < 0 ∧
    ((start wideMiddle [] []).program.length : Int) ≤ 0 + 1 + (3 : Word32).toInt ∧
    (2 : Int) = 0 + 1 + (1 : Word32).toInt ∧ 2 < (start wideMiddle [] []).program.length ∧
    isSecondSlot (start wideMiddle [] []).program 2 = true := by decide +kernel

theorem witness_HelperCallFaults : lookupTable (State.reset.params.helperTable .static) 1 = none ∧
    lookupTable ((withHelpers State.reset).params.helperTable .static) 1 =
      some ⟨2, .computed (.add (.arg 0) (.arg 1)) [(.arg 0, .arg 1)]⟩ ∧
    argRegs.take (2 : Fin 6) = [.r1] ++ .r2 :: [] ∧ (∀ x ∈ [Reg.r1], (unset State.reset .r2).reg x ≠ none) ∧
    (unset State.reset .r2).reg .r2 = none := ⟨rfl, rfl, rfl, by decide, rfl⟩

theorem witness_HelperCallFaults_fails :
    lookupTable ((withHelpers State.reset).params.helperTable .btf) 2 = some ⟨5, .fails 9⟩ ∧
    (argRegs.take (5 : Fin 6)).map State.reset.reg = [0, 0, 0, 0, 0].map some ∧
    runHelper .btf 2 (.fails 9) [0, 0, 0, 0, 0] [] 0 = .fails 9 := ⟨rfl, rfl, rfl⟩

theorem witness_PlatformFaults : lookupTable State.reset.params.mapByFd 3 = none ∧
    ((lookupTable (withPlatform State.reset).params.mapByFd 4).bind (lookupTable (withPlatform State.reset).params.mapVal)) = none ∧
    lookupTable (withPlatform State.reset).params.codeAddr (1, 6) = none ∧
    State.reset.params.packet = .unsupported := ⟨rfl, rfl, rfl, rfl⟩

theorem witness_AddSubMulResults :
    (operands 0xffffffffffffffff 1).reg .r1 = some 0xffffffffffffffff ∧ (operands 0xffffffffffffffff 1).reg .r2 = some 1 :=
  ⟨rfl, rfl⟩

/-- A divisor whose low half is zero divides in class ALU64 only. -/
theorem witness_UnsignedDivisionAndModulo : (operands 100 0x100000000).reg .r1 = some 100 ∧
    (operands 100 0x100000000).reg .r2 = some 0x100000000 ∧ (0x100000000 : Word).toNat ≠ 0 ∧
    (low32 (operands 100 1).regs.r2.get!).toNat ≠ 0 ∧ (-1 : Word32).toNat ≠ 0 ∧
    (BitVec.ofInt 64 (-1 : Word32).toInt).toNat ≠ 0 := by decide

theorem witness_DivisionByZeroGivesZero : (operands 100 0x100000000).reg .r1 = some 100 ∧
    (operands 100 0x100000000).reg .r2 = some 0x100000000 ∧ (low32 0x100000000 == 0) = true ∧ ((0 : Word32) == 0) = true ∧
    (operands 100 0).reg .r2 = some 0 ∧ ((0 : Word) == 0) = true := by decide

theorem witness_ModuloByZeroKeepsTheDividend : (operands 0xaaaaaaaa00000007 0x100000000).reg .r1 = some 0xaaaaaaaa00000007 ∧
    (operands 0xaaaaaaaa00000007 0x100000000).reg .r2 = some 0x100000000 ∧ (low32 0x100000000 == 0) = true ∧
    (operands 7 0).reg .r2 = some 0 ∧ ((0 : Word) == 0) = true ∧ ((0 : Word32) == 0) = true := by decide

theorem witness_SignedDivisionAndModulo : (operands 0x8000000000000000 (-1)).reg .r1 = some 0x8000000000000000 ∧
    (operands 0x8000000000000000 (-1)).reg .r2 = some (-1) ∧ State.reset.params.sdivOverflow = .wrap ∧
    ¬((0x8000000000000000 : Word).toInt = -2 ^ (64 - 1) ∧ (1 : Word).toInt = -1) := by decide

theorem witness_SignedDivisionDrawsOnOverflow :
    ({ operands 0x8000000080000000 (-1) with params := { Params.reset with sdivOverflow := .draw } } : State).params.sdivOverflow
      = .draw ∧
    (operands 0x8000000080000000 (-1)).reg .r1 = some 0x8000000080000000 ∧
    (operands 0x8000000080000000 (-1)).reg .r2 = some (-1) ∧
    (low32 0x8000000080000000).toInt = -2 ^ (32 - 1) ∧ (low32 (-1)).toInt = -1 ∧
    (0x8000000000000000 : Word).toInt = -2 ^ (64 - 1) ∧ (-1 : Word).toInt = -1 ∧ (-1 : Word32).toInt = -1 := by decide

theorem witness_BitwiseResults : (operands 0xff00 0x0ff0).reg .r1 = some 0xff00 ∧
    (operands 0xff00 0x0ff0).reg .r2 = some 0x0ff0 := ⟨rfl, rfl⟩

theorem witness_ShiftResults : (operands 0x8000000080000000 127).reg .r1 = some 0x8000000080000000 ∧
    (operands 0x8000000080000000 127).reg .r2 = some 127 := ⟨rfl, rfl⟩

theorem witness_NegationAndMoveResults : (operands 0x8000000000000000 0x80).reg .r1 = some 0x8000000000000000 ∧
    (operands 0x8000000000000000 0x80).reg .r2 = some 0x80 := ⟨rfl, rfl⟩

theorem witness_ByteSwapResults : (operands 0x0123456789abcdef 0).reg .r1 = some 0x0123456789abcdef := rfl

theorem witness_UpperHalvesDoNotMatter :
    (Instr.aluAddK .r1 3).fields.opcode &&& 7#8 = 4#8 ∧ (Instr.aluAddK .r1 3).fields.opcode >>> 4 ≠ 13#8 ∧
    (Instr.jmp32JeqK .r1 0 5).fields.opcode &&& 7#8 = 6#8 ∧
    operands 0x100000005 0 = { operands 5 0 with regs := (operands 0x100000005 0).regs } ∧
    (∀ r, ((operands 5 0).reg r).map low32 = ((operands 0x100000005 0).reg r).map low32) ∧
    (∃ t, exec (.aluAddK .r1 3) (operands 5 0) = .next t ∧ t.pc ≠ (operands 5 0).pc) ∧
    ∃ w, exec (.aluAddK .r1 3) (operands 0x100000005 0) = .next w :=
  ⟨rfl, by decide, rfl, rfl, by intro r; cases r <;> rfl, ⟨_, rfl, by decide⟩, _, rfl⟩

/-- The first slot and the last one. -/
theorem witness_UnconditionalJumpResults :
    ((0 : Nat) < (start wideMiddle [] []).program.length ∧ isSecondSlot (start wideMiddle [] []).program 0 = false ∧
      ((0 : Nat) : Int) = (0 : Nat) + 1 + (-1 : BitVec 16).toInt) ∧
    3 < (start wideMiddle [] []).program.length ∧ isSecondSlot (start wideMiddle [] []).program 3 = false ∧
    ((3 : Nat) : Int) = (0 : Nat) + 1 + (2 : Word32).toInt := by decide +kernel

theorem witness_ConditionalJumpResults : (operands 5 6).reg .r1 = some 5 ∧ (operands 5 6).reg .r2 = some 6 ∧
    (.jmpJltX .r1 .r2 2, true) ∈ Expected.conditionalJumps .r1 .r2 2 0 5 6 ∧
    (.jmp32JsgtX .r1 .r2 2, false) ∈ Expected.conditionalJumps .r1 .r2 2 0 5 6 ∧
    (3 : Int) = 0 + 1 + (2 : BitVec 16).toInt ∧ 3 < (start wideMiddle [] []).program.length ∧
    isSecondSlot (start wideMiddle [] []).program 3 = false := by decide +kernel

/-- Helper 1 on the last byte of the live frame. -/
theorem witness_HelperCallResults :
    lookupTable ((withHelpers (operands 0x7fff 5)).params.helperTable .static) 1 =
      some ⟨2, .computed (.add (.arg 0) (.arg 1)) [(.arg 0, .arg 1)]⟩ ∧
    (argRegs.take (2 : Fin 6)).map (withHelpers (operands 0x7fff 5)).reg = [0x7fff, 5].map some ∧
    runHelper .static 1 (.computed (.add (.arg 0) (.arg 1)) [(.arg 0, .arg 1)]) [0x7fff, 5] [] 0 =
      .returns 0x8004 ([] ++ (0x7fff, some 5) :: []) := ⟨rfl, rfl, rfl⟩

/-- A helper writes into the dead frame at depth 1; the byte is gone when a call enters that frame (rules R68, R273). -/
theorem test_helper_dead_frame :
    (match exec (.jmpCallHelper 1) (withHelpers (start [.jmpJa 0, .jmpJa 0] [(.r1, 0x7dff), (.r2, 5)] [])) with
      | .next t => t.mem == [(0x7dff, 5)] && (match exec (.jmpCallLocal (-1)) t with | .next u => u.mem == [] | _ => false)
      | _ => false) = true := by decide +kernel

/-- A helper given as a table: a function of its argument and of memory (rules R10, R273). -/
theorem test_helper_table :
    runHelper .static 7 (.table [(([3], []), .returns 9 [(0x1000, none)]), (([3], [(5, 6)]), .fails 2)] (.returns 0 []))
      [3] [(5, 6)] 0 = .fails 2 := by decide +kernel

theorem witness_LocalCallResults :
    ({ start wideMiddle [] [] with frames := List.replicate 7 outer } : State).depth < Params.reset.maxCallDepth ∧
    ((3 : Nat) : Int) = (0 : Nat) + 1 + (2 : Word32).toInt ∧ 3 < (start wideMiddle [] []).program.length ∧
    isSecondSlot (start wideMiddle [] []).program 3 = false := by decide +kernel

theorem witness_ExitResults : (inner State.reset).frames = outer :: [] ∧ State.reset.frames = [] ∧
    State.reset.reg .r0 = some 0 ∧ (unset State.reset .r0).frames = [] ∧ (unset State.reset .r0).reg .r0 = none :=
  ⟨rfl, rfl, rfl, rfl, rfl⟩

theorem witness_CallAndExitPreserveTheCaller : (start wideMiddle [(.r6, 66)] []).status = .running ∧
    ∃ t, exec (.jmpCallLocal 2) (start wideMiddle [(.r6, 66)] []) = .next t ∧ t.status = .running ∧
      ({ t with pc := 1, regs := State.reset.regs } : State).frames = t.frames := ⟨rfl, _, rfl, rfl, rfl⟩

theorem witness_ZeroExtendingLoadResults :
    (start [] [(.r2, 0x8000)] eightBytes).reg .r2 = some 0x8000 ∧
    Expected.holds (start [] [(.r2, 0x8000)] eightBytes).mem (effectiveAddr 0x8000 (-8)) [1, 2, 3, 4, 5, 6, 7, 0x88] ∧
    (start [] [(.r2, 0x8000)] eightBytes).admits (effectiveAddr 0x8000 (-8)) 8 .read = true := by
  unfold Expected.holds
  decide +kernel

theorem witness_SignExtendingLoadResults :
    (start [] [(.r2, 0x8000)] eightBytes).reg .r2 = some 0x8000 ∧
    Expected.holds (start [] [(.r2, 0x8000)] eightBytes).mem (effectiveAddr 0x8000 (-2)) [7, 0x88] ∧
    (start [] [(.r2, 0x8000)] eightBytes).admits (effectiveAddr 0x8000 (-2)) 2 .read = true := by
  unfold Expected.holds
  decide +kernel

/-- The lowest and the highest bytes of the frame. -/
theorem witness_StoreResults : (operands 0x8000 5).reg .r1 = some 0x8000 ∧ (operands 0x8000 5).reg .r2 = some 5 ∧
    (operands 0x8000 5).admits (effectiveAddr 0x8000 (-512)) 8 .write = true ∧
    (operands 0x8000 5).admits (effectiveAddr 0x8000 (-1)) 1 .write = true := by decide +kernel

theorem witness_StoreThenLoadSeesTheBytes : (operands 0x8000 5).reg .r1 = some 0x8000 ∧ (operands 0x8000 5).reg .r2 = some 5 ∧
    (effectiveAddr 0x8000 (-1)).toNat = (effectiveAddr 0x8000 (-8)).toNat + 7 ∧ 7 + 1 ≤ 8 ∧
    (operands 0x8000 5).admits (effectiveAddr 0x8000 (-8)) 8 .write = true ∧
    (operands 0x8000 5).admits (effectiveAddr 0x8000 (-1)) 1 .read = true := by decide +kernel

theorem witness_SimpleAtomicResults :
    (start [] [(.r1, 0x8000), (.r2, 5)] eightBytes).reg .r1 = some 0x8000 ∧
    (start [] [(.r1, 0x8000), (.r2, 5)] eightBytes).reg .r2 = some 5 ∧
    Expected.holds (start [] [(.r1, 0x8000), (.r2, 5)] eightBytes).mem (effectiveAddr 0x8000 (-4)) [5, 6, 7, 0x88] ∧
    (start [] [(.r1, 0x8000), (.r2, 5)] eightBytes).admits (effectiveAddr 0x8000 (-4)) 4 .atomic = true := by
  unfold Expected.holds
  decide +kernel

theorem witness_FetchingAtomicResults :
    (start [] [(.r1, 0x8000)] eightBytes).reg .r1 = some 0x8000 ∧
    Expected.holds (start [] [(.r1, 0x8000)] eightBytes).mem (effectiveAddr 0x8000 (-8)) [1, 2, 3, 4, 5, 6, 7, 0x88] ∧
    (start [] [(.r1, 0x8000)] eightBytes).admits (effectiveAddr 0x8000 (-8)) 8 .atomic = true := by
  unfold Expected.holds
  decide +kernel

/-- Memory equal to R0, and not. -/
theorem witness_CompareExchangeResults :
    (start [] [(.r0, 0x88070605), (.r1, 0x8000), (.r2, 5)] eightBytes).reg .r0 = some 0x88070605 ∧
    (start [] [(.r0, 0x88070605), (.r1, 0x8000), (.r2, 5)] eightBytes).reg .r1 = some 0x8000 ∧
    (start [] [(.r0, 0x88070605), (.r1, 0x8000), (.r2, 5)] eightBytes).reg .r2 = some 5 ∧
    Expected.holds eightBytes (effectiveAddr 0x8000 (-4)) [5, 6, 7, 0x88] ∧
    (start [] [(.r0, 0x88070605), (.r1, 0x8000), (.r2, 5)] eightBytes).admits (effectiveAddr 0x8000 (-4)) 4 .atomic = true ∧
    Expected.hostNumber .little [5, 6, 7, 0x88] = (0x88070605 : Word).toNat % 256 ^ 4 ∧
    Expected.hostNumber .little [5, 6, 7, 0x88] ≠ (0x88070606 : Word).toNat % 256 ^ 4 := by
  unfold Expected.holds
  decide +kernel

/-- A platform with a region that has a code address in its middle, and read-only grants: four bytes at 0x2000, not one. -/
def gatedParams : Params :=
  { Params.default with
    regions := [⟨0x1000, 32, true, true, true, false⟩, ⟨0x3000, 8, true, false, true, false⟩]
    grants := [⟨0x2000, 0x2000, [4], [.read, .atomic]⟩, ⟨0x7dfc, 0x7dfc, [8], [.read, .write]⟩]
    codeAddr := [((0, 1), 0x1008)] }

theorem witness_AdmitConstraints : 0 < 8 ∧ Params.default.admits 0 0x7ff8 8 .atomic = true ∧ 0 < 1 ∧
    1 ≤ Params.default.maxCallDepth ∧ (0x7ff8 : Word).toNat ≤ 0x7fff ∧ 0x7fff < (0x7ff8 : Word).toNat + 8 ∧
    gatedParams.admits 0 0x1000 8 .write = true ∧ gatedParams.admits 0 0x1010 4 .atomic = true ∧
    ((0, 1), 0x1008) ∈ gatedParams.codeAddr := by decide +kernel

/-- `Admit` by size, across two live frames, through a code address, and for atomics alone (rules R66, R371, R421). -/
theorem test_admit_platform : gatedParams.admits 0 0x2000 4 .read = true ∧ gatedParams.admits 0 0x2000 1 .read = false ∧
    gatedParams.admits 1 0x7dfc 8 .read = true ∧ gatedParams.admits 0 0x7dfc 8 .read = false ∧
    gatedParams.admits 0 0x100f 1 .read = false ∧ gatedParams.admits 0 0x2000 4 .atomic = false ∧
    gatedParams.admits 0 0x3000 8 .atomic = false := by decide +kernel

/-- The lowest double word of the outermost frame, seen from the greatest depth. -/
theorem witness_AdmitLiveFrames : stackLayoutOk Params.default = true ∧ 0 ≤ 8 ∧ 8 ≤ Params.default.maxCallDepth ∧ 0 < 8 ∧
    (Params.default.framePointer 0).toNat - Params.default.stackSize ≤ (0x7e00 : Word).toNat ∧
    (0x7e00 : Word).toNat + 8 ≤ (Params.default.framePointer 0).toNat ∧ (0x7e00 : Word).toNat % 8 = 0 := by decide +kernel

theorem witness_MemoryChangesOnlyWhereAdmitted_store : ∃ t, step (start [.stMemB .r10 (-1) 5] [] []) = .next t ∧
    t.mem.read 0x7fff ≠ (start [.stMemB .r10 (-1) 5] [] []).mem.read 0x7fff := ⟨_, rfl, by decide +kernel⟩

theorem witness_MemoryChangesOnlyWhereAdmitted_helper :
    ∃ t, step (withHelpers (start [.jmpCallHelper 1] [(.r1, 0x7fff), (.r2, 5)] [])) = .next t ∧
      t.mem.read 0x7fff ≠ (start [.jmpCallHelper 1] [(.r1, 0x7fff), (.r2, 5)] []).mem.read 0x7fff := ⟨_, rfl, by decide +kernel⟩

theorem witness_MemoryChangesOnlyWhereAdmitted_call :
    ∃ t, step (start [.jmpCallLocal 0, .jmpExit] [] [(0x7dff, 1)]) = .next t ∧
      t.mem.read 0x7dff ≠ (start [.jmpCallLocal 0, .jmpExit] [] [(0x7dff, 1)]).mem.read 0x7dff := ⟨_, rfl, by decide +kernel⟩

theorem witness_MemoryChangesOnlyWhereAdmitted_exit : ∃ t, step (inner (start [.jmpExit] [] [(0x7dff, 1)])) = .next t ∧
    t.mem.read 0x7dff ≠ (inner (start [.jmpExit] [] [(0x7dff, 1)])).mem.read 0x7dff := ⟨_, rfl, by decide +kernel⟩

theorem witness_WideImmediateResults : lookupTable (withPlatform State.reset).params.mapByFd 3 = some 0x2000 ∧
    lookupTable (withPlatform State.reset).params.mapByIdx 4 = some 0x2000 ∧
    lookupTable (withPlatform State.reset).params.varAddr 5 = some 0x4000 ∧
    lookupTable (withPlatform State.reset).params.codeAddr ((withPlatform State.reset).pc, 6) = some 0x5000 ∧
    (((lookupTable (withPlatform State.reset).params.mapByFd 3).bind (lookupTable (withPlatform State.reset).params.mapVal)).map
      fun x => BitVec.ofNat 64 (x.toNat + (16 : Word32).toNat)) = some 0x3010 := by decide +kernel

/-- The last four bytes of the packet; and one byte less than the load needs. -/
theorem witness_PacketLoadResults :
    (withPacket (start [] [(.r2, 2)] [])).params.packet = .linux ([0x45, 0, 0, 0x54] ++ [0xde, 0xad, 0xbe, 0xef] ++ []) ∧
    (withPacket (start [] [(.r2, 2)] [])).reg .r2 = some 2 ∧ (withPacket (start [] [(.r2, 2)] [])).reg .r6 = some 0 ∧
    ((2 : Word).toInt + (2 : Word32).toInt).bmod (2 ^ 32) = ([0x45, 0, 0, 0x54] : List Byte).length ∧
    (-1 : Word32).toInt < 0 ∧ (8 : Int) < (5 : Word32).toInt + 4 := by decide +kernel

theorem witness_ProgramAndParametersNeverChange : ∃ t, exec (.stMemB .r10 (-1) 5) State.reset = .next t := ⟨_, rfl⟩

theorem witness_OnlyCallAndExitChangeFramesAndR10 : ∃ t, step (start [.alu64MovK .r1 5] [] []) = .next t ∧
    decodeAt (start [.alu64MovK .r1 5] [] []) 0 = .ok (.alu64MovK .r1 5) ∧ Params.reset.r10ReadOnly = true := ⟨_, rfl, rfl, rfl⟩

theorem witness_RegistersWrittenAreTheDestination : (∃ t, exec (.alu64MovK .r1 5) State.reset = .next t) ∧
    (Instr.alu64MovK .r1 5).fields.opcode ≠ 0x85 ∧ Instr.alu64MovK .r1 5 ≠ .jmpExit ∧
    (Instr.alu64MovK .r1 5).group ≠ .packet ∧ (Instr.alu64MovK .r1 5).writtenReg ≠ some .r2 ∧
    (Instr.stxAtomicDwCmpxchg .r1 .r2 0).writtenReg ≠ some .r2 ∧ Reg.r2 ≠ .r0 := ⟨⟨_, rfl⟩, by decide⟩

/-- A state inside a called function, with a byte in each of the two live frames. -/
theorem inner_inv : (inner (start [.alu64MovK .r1 5, .jmpExit, .jmpJa 0, .jmpExit] [] [(0x7dff, 1), (0x7fff, 2)])).Inv where
  memory := by decide
  depthBound := by decide
  deadFrames := by
    intro _ _ a h
    show Memory.read [(0x7dff, 1), (0x7fff, 2)] a = none
    have h1 : 0x7dff ≠ a := by
      rintro rfl
      exact absurd h (by decide +kernel)
    have h2 : 0x7fff ≠ a := by
      rintro rfl
      exact absurd h (by decide +kernel)
    simp [Memory.read, h1, h2]
  framePointer := fun _ => ⟨by decide +kernel, by decide +kernel, trivial⟩
  startsInstruction := by decide +kernel

theorem witness_StepKeepsTheInvariant :
    (inner (start [.alu64MovK .r1 5, .jmpExit, .jmpJa 0, .jmpExit] [] [(0x7dff, 1), (0x7fff, 2)])).Inv ∧
    ∃ t, step (inner (start [.alu64MovK .r1 5, .jmpExit, .jmpJa 0, .jmpExit] [] [(0x7dff, 1), (0x7fff, 2)])) = .next t :=
  ⟨inner_inv, _, rfl⟩

/-- The entry state of a program of two instructions. -/
def launched : State := State.entry Params.default ((Instr.alu64MovK .r0 5 :: [.jmpExit]).flatMap (encode .little)) []

theorem witness_LaunchedRunsKeepTheInvariant :
    launch Params.default ((Instr.alu64MovK .r0 5 :: [.jmpExit]).flatMap (encode .little)) [] = .next launched ∧
    ∃ t, launched.Reaches t ∧ t.pc = 1 := ⟨rfl, _, .stepped _ _ .refl rfl, rfl⟩

/-- A shared region beside the stack. -/
def sharedParams : Params := { Params.reset with regions := [⟨0x1000, 16, true, true, true, true⟩] }

/-- The entry state of a program that loads a byte of the shared region twice. -/
def sharing : State :=
  State.entry sharedParams ((Instr.ldxMemB .r2 .r1 0x1000 :: [.ldxMemB .r3 .r1 0x1000]).flatMap (encode .little)) [(0x1000, 1)]

/-- A run in which another agent changes the byte between the two loads: they read 1 and 2 (rules R81, R497). -/
theorem witness_LaunchedRunsKeepTheInvariant_environment :
    launch sharedParams ((Instr.ldxMemB .r2 .r1 0x1000 :: [.ldxMemB .r3 .r1 0x1000]).flatMap (encode .little))
      [(0x1000, 1)] = .next sharing ∧
    ∃ t, sharing.Reaches t ∧ t.reg .r2 = some 1 ∧ t.reg .r3 = some 2 :=
  ⟨rfl, _, .stepped _ _ (.environment _ [(0x1000, 2)] (.stepped _ _ .refl rfl) rfl) rfl, rfl, rfl⟩

/-- A byte that is not shared, a byte of the stack, and a byte that may change. -/
theorem witness_OtherAgentsChangeOnlySharedBytes : sharedParams.sharedByte 0x1010 = false ∧ sharedParams.stackByte 0x7fff = true ∧
    (({ State.reset with params := sharedParams } : State).envStep [(0x100f, 5), (0x1010, 6), (0x7fff, 7)]).mem = [(0x100f, 5)] ∧
    ({ State.reset with params := sharedParams } : State).Inv :=
  ⟨by decide +kernel, by decide +kernel, by decide +kernel, {
    memory := by decide
    depthBound := by decide
    deadFrames := fun _ _ _ _ => rfl
    framePointer := fun _ => ⟨by decide +kernel, trivial⟩
    startsInstruction := by decide }⟩

/-- Two bytes placed at one address: the last one counts. -/
theorem witness_LaunchGivesTheEntryState : groupsClosed sharedParams = true ∧
    fitsMaxSlots { sharedParams with maxSlots := some 2 } [0x95, 0x95] = true ∧ stackLayoutOk sharedParams = true ∧
    sharedParams.stackByte 0x7e00 = true ∧
    ([(0x1000, 1), (0x1000, 2), (0x1001, 3)] : List (Word × Byte)) = [(0x1000, 1)] ++ (0x1000, 2) :: [(0x1001, 3)] ∧
    (∀ x ∈ ([(0x1001, 3)] : List (Word × Byte)), x.1 ≠ 0x1000) ∧ sharedParams.stackByte (0x1000 : Word).toNat = false ∧
    ∀ c ∈ ([(0x1000, 1), (0x1000, 2), (0x1001, 3)] : List (Word × Byte)), c.1.toNat ≠ 0x1002 :=
  ⟨by decide +kernel, by decide +kernel, by decide +kernel, by decide +kernel, rfl, by simp, by decide +kernel, by simp⟩

theorem witness_LaunchRefusals : Group.base32 ∉ ({ Params.default with groups := [] } : Params).groups ∧
    (.atomic64 ∈ ({ Params.default with groups := [.base32, .atomic64] } : Params).groups ∧
      .atomic32 ∉ ({ Params.default with groups := [.base32, .atomic64] } : Params).groups) ∧
    (groupsClosed { Params.default with maxSlots := some 1 } = true ∧ 1 < ([0x95, 0x95] : List Slot).length) ∧
    groupsClosed { Params.default with stackSize := 513 } = true ∧
    fitsMaxSlots { Params.default with stackSize := 513 } [] = true ∧
    stackLayoutOk { Params.default with stackSize := 513 } = false := by decide +kernel

theorem witness_SwapGroupsFollowTheWidth : (Instr.aluEndToBe64 .r10, 64) ∈
    ([(.aluEndToBe32 .r10, 32), (.aluEndToBe64 .r10, 64)] : List (Instr × Nat)) ∧ Instr.ldAbsW 0 ≠ .jmpExit := by decide

end Sys2Proof.Tests
end

section
/-!
SUPPORT. Division, remainder and shifts: the arithmetic operations of 40_alu.md on integers, the four operand forms in
which classes `ALU` and `ALU64` use one operation, and the statements about `DIV`, `MOD`, `SDIV`, `SMOD`, `LSH`, `RSH` and
`ARSH`.
-/

namespace Sys2Proof.Machine

/-! ### The operations on integers -/

/-- `Nat` division answers 0 for a zero divisor, as `DIV` does, so one equation covers rules R153 and R155. -/
@[simp] theorem toNat_opDiv {n : Nat} (a b : BitVec n) : (opDiv a b).toNat = a.toNat / b.toNat := by
  unfold opDiv
  split
  · next h => simp [h]
  · exact BitVec.toNat_udiv

/-- The `Nat` remainder for a zero divisor is the dividend, as for `MOD`, so one equation covers rules R153 and R156. -/
@[simp] theorem toNat_opMod {n : Nat} (a b : BitVec n) : (opMod a b).toNat = a.toNat % b.toNat := by
  unfold opMod
  split
  · next h => simp [h]
  · exact BitVec.toNat_umod

@[simp] theorem opDiv_zero {n : Nat} (a : BitVec n) : opDiv a 0#n = 0#n := if_pos rfl

@[simp] theorem opSdiv_zero {n : Nat} (a : BitVec n) : opSdiv a 0#n = 0#n := if_pos rfl

@[simp] theorem opMod_zero {n : Nat} (a : BitVec n) : opMod a 0#n = a := if_pos rfl

@[simp] theorem opSmod_zero {n : Nat} (a : BitVec n) : opSmod a 0#n = a := if_pos rfl

/-- Division by zero is not the overflow of rule R158, whose divisor has every bit set. -/
theorem sdivOverflows_zero {n : Nat} (hn : 0 < n) (a : BitVec n) : sdivOverflows a 0#n = false := by
  have hne : 0#n ≠ BitVec.allOnes n := fun h => by
    have hbit := congrArg (BitVec.getLsbD · 0) h
    simp [hn] at hbit
  simp [sdivOverflows, hne]

/-- The shift amount of a 32-bit operation: the low 5 bits of its operand (rule R159). -/
theorem shiftAmount_word32 (b : Word32) : shiftAmount b = b.toNat % 32 :=
  Nat.and_two_pow_sub_one_eq_mod b.toNat 5

/-- The shift amount of a 64-bit operation: the low 6 bits of its operand (rule R159). -/
theorem shiftAmount_word (b : Word) : shiftAmount b = b.toNat % 64 :=
  Nat.and_two_pow_sub_one_eq_mod b.toNat 6

/-- The upper half of a register has no part in a 32-bit shift amount. -/
theorem shiftAmount_low32 (b : Word) : shiftAmount (low32 b) = b.toNat % 32 := by
  rw [shiftAmount_word32, low32, BitVec.toNat_setWidth]
  omega

/-- The copies of the sign bit have no part in a 64-bit shift amount. -/
theorem shiftAmount_sext64 (imm : Word32) : shiftAmount (sext64 imm) = imm.toNat % 64 := by
  rw [shiftAmount_word, sext64, BitVec.toNat_signExtend, BitVec.toNat_setWidth]
  split <;> omega

theorem toNat_opLsh {n : Nat} (a b : BitVec n) : (opLsh a b).toNat = a.toNat * 2 ^ shiftAmount b % 2 ^ n := by
  rw [opLsh, BitVec.toNat_shiftLeft, Nat.shiftLeft_eq]

theorem toNat_opRsh {n : Nat} (a b : BitVec n) : (opRsh a b).toNat = a.toNat / 2 ^ shiftAmount b := by
  rw [opRsh, BitVec.toNat_ushiftRight, Nat.shiftRight_eq_div_pow]

theorem toInt_opArsh {n : Nat} (a b : BitVec n) : (opArsh a b).toInt = a.toInt / 2 ^ shiftAmount b := by
  rw [opArsh, BitVec.toInt_sshiftRight, Int.shiftRight_eq_div_pow, Nat.cast_pow, Nat.cast_ofNat]

/-- A bit pattern zero-extended to a register, from the number it stands for when read as signed. -/
theorem setWidth_eq_ofInt {n : Nat} (v : BitVec n) : v.setWidth 64 = BitVec.ofInt 64 (v.toInt % 2 ^ n) := by
  have hnat : ((v.toNat : Nat) : Int) = v.toInt % 2 ^ n := by
    have hpos : (0 : Int) < 2 ^ n := by positivity
    have h := BitVec.toNat_ofInt (n := n) v.toInt
    rw [BitVec.ofInt_toInt] at h
    push_cast at h
    rw [h, Int.toNat_of_nonneg (Int.emod_nonneg _ hpos.ne')]
  rw [← hnat, BitVec.ofInt_natCast, BitVec.ofNat_toNat]

/-! ### The operand forms -/

/-- Writing back what a register holds changes nothing. -/
theorem Regs.set_get (x : Regs) (r : Reg) : x.set r (x.get r) = x := by
  cases r <;> rfl

theorem State.writeNext_eq (s : State) (r : Reg) (v : Word) :
    s.writeNext r v = .next { s with regs := s.regs.set r (some v), pc := s.pc + 1 } := rfl

/-- An instruction that writes back its destination's own value only goes on. -/
theorem State.writeNext_self {s : State} {r : Reg} {v : Word} (h : s.reg r = some v) :
    s.writeNext r v = .next { s with pc := s.pc + 1 } := by
  rw [State.writeNext_eq, ← h, State.reg, Regs.set_get]

/-- The four instructions of an operation, as functions of their operands: class `ALU` and `ALU64`, form `K` and `X`. -/
structure AluForms (f : ∀ n : Nat, BitVec n → BitVec n → BitVec n) (k32 : Reg → Word32 → Instr) (x32 : Reg → Reg → Instr)
    (k64 : Reg → Word32 → Instr) (x64 : Reg → Reg → Instr) : Prop where
  exec_k32 : ∀ dst imm s, exec (k32 dst imm) s = alu32K (f 32) dst imm s
  exec_x32 : ∀ dst src s, exec (x32 dst src) s = alu32X (f 32) dst src s
  exec_k64 : ∀ dst imm s, exec (k64 dst imm) s = alu64K (f 64) dst imm s
  exec_x64 : ∀ dst src s, exec (x64 dst src) s = alu64X (f 64) dst src s

theorem divForms : AluForms @opDiv .aluDivK .aluDivX .alu64DivK .alu64DivX :=
  ⟨fun _ _ _ => rfl, fun _ _ _ => rfl, fun _ _ _ => rfl, fun _ _ _ => rfl⟩

theorem modForms : AluForms @opMod .aluModK .aluModX .alu64ModK .alu64ModX :=
  ⟨fun _ _ _ => rfl, fun _ _ _ => rfl, fun _ _ _ => rfl, fun _ _ _ => rfl⟩

theorem smodForms : AluForms @opSmod .aluSmodK .aluSmodX .alu64SmodK .alu64SmodX :=
  ⟨fun _ _ _ => rfl, fun _ _ _ => rfl, fun _ _ _ => rfl, fun _ _ _ => rfl⟩

theorem lshForms : AluForms @opLsh .aluLshK .aluLshX .alu64LshK .alu64LshX :=
  ⟨fun _ _ _ => rfl, fun _ _ _ => rfl, fun _ _ _ => rfl, fun _ _ _ => rfl⟩

theorem rshForms : AluForms @opRsh .aluRshK .aluRshX .alu64RshK .alu64RshX :=
  ⟨fun _ _ _ => rfl, fun _ _ _ => rfl, fun _ _ _ => rfl, fun _ _ _ => rfl⟩

theorem arshForms : AluForms @opArsh .aluArshK .aluArshX .alu64ArshK .alu64ArshX :=
  ⟨fun _ _ _ => rfl, fun _ _ _ => rfl, fun _ _ _ => rfl, fun _ _ _ => rfl⟩

section operands

variable {f : ∀ n : Nat, BitVec n → BitVec n → BitVec n} {k32 k64 : Reg → Word32 → Instr} {x32 x64 : Reg → Reg → Instr}
  {s : State} {dst src : Reg} {imm : Word32} {a b : Word}

/-- `ALU`, form `K`, on a register that holds a value. -/
theorem AluForms.k32_writes (F : AluForms f k32 x32 k64 x64) (ha : s.reg dst = some a) :
    exec (k32 dst imm) s = s.writeNext dst ((f 32 (low32 a) imm).setWidth 64) := by
  rw [F.exec_k32, alu32K, State.withReg_of_some _ _ _ _ ha, zext64]

/-- `ALU`, form `X`, on registers that hold values. -/
theorem AluForms.x32_writes (F : AluForms f k32 x32 k64 x64) (ha : s.reg dst = some a) (hb : s.reg src = some b) :
    exec (x32 dst src) s = s.writeNext dst ((f 32 (low32 a) (low32 b)).setWidth 64) := by
  rw [F.exec_x32, alu32X, State.withReg_of_some _ _ _ _ ha, State.withReg_of_some _ _ _ _ hb, zext64]

/-- `ALU64`, form `K`, on a register that holds a value. -/
theorem AluForms.k64_writes (F : AluForms f k32 x32 k64 x64) (ha : s.reg dst = some a) :
    exec (k64 dst imm) s = s.writeNext dst ((f 64 a (sext64 imm)).setWidth 64) := by
  rw [F.exec_k64, alu64K, State.withReg_of_some _ _ _ _ ha, BitVec.setWidth_eq]

/-- `ALU64`, form `X`, on registers that hold values. -/
theorem AluForms.x64_writes (F : AluForms f k32 x32 k64 x64) (ha : s.reg dst = some a) (hb : s.reg src = some b) :
    exec (x64 dst src) s = s.writeNext dst ((f 64 a b).setWidth 64) := by
  rw [F.exec_x64, alu64X, State.withReg_of_some _ _ _ _ ha, State.withReg_of_some _ _ _ _ hb, BitVec.setWidth_eq]

/-- An operation that is `g` on unsigned numbers writes what `g` gives for the unsigned operands of each form; an
immediate of `ALU64` is sign-extended and then unsigned (rules R151, R153). -/
theorem AluForms.writes_of_unsigned (F : AluForms f k32 x32 k64 x64) {g : Nat → Nat → Nat}
    (hg : ∀ n (x y : BitVec n), (f n x y).toNat = g x.toNat y.toNat) (ha : s.reg dst = some a) (hb : s.reg src = some b) :
    ∀ p ∈ ([(k32 dst imm, 32, (low32 a).toNat, imm.toNat), (x32 dst src, 32, (low32 a).toNat, (low32 b).toNat),
        (k64 dst imm, 64, a.toNat, (BitVec.ofInt 64 imm.toInt).toNat), (x64 dst src, 64, a.toNat, b.toNat)] :
        List (Instr × Nat × Nat × Nat)),
      exec p.1 s = s.writeNext dst (BitVec.ofNat 64 (g p.2.2.1 p.2.2.2)) := by
  have hw (n : Nat) (x y : BitVec n) : (f n x y).setWidth 64 = BitVec.ofNat 64 (g x.toNat y.toNat) := by
    rw [← hg, BitVec.ofNat_toNat]
  simp only [List.forall_mem_cons]
  exact ⟨(F.k32_writes ha).trans (by rw [hw]), (F.x32_writes ha hb).trans (by rw [hw]),
    (F.k64_writes ha).trans (by rw [hw]; rfl), (F.x64_writes ha hb).trans (by rw [hw]), List.forall_mem_nil _⟩

/-- An operation whose result depends on its second operand by the shift amount only: each form takes the amount from the
source operand as it stands, before it is cut to 32 bits or sign-extended (rule R159). -/
theorem AluForms.writes_of_shift (F : AluForms f k32 x32 k64 x64) {α : Type} {u : ∀ n : Nat, BitVec n → α}
    {g : Nat → α → Nat → Word} (hg : ∀ n (x y : BitVec n), (f n x y).setWidth 64 = g n (u n x) (shiftAmount y))
    (ha : s.reg dst = some a) (hb : s.reg src = some b) :
    ∀ p ∈ ([(k32 dst imm, 32, u 32 (low32 a), imm.toNat), (x32 dst src, 32, u 32 (low32 a), b.toNat),
        (k64 dst imm, 64, u 64 a, imm.toNat), (x64 dst src, 64, u 64 a, b.toNat)] : List (Instr × Nat × α × Nat)),
      exec p.1 s = s.writeNext dst (g p.2.1 p.2.2.1 (p.2.2.2 % p.2.1)) := by
  simp only [List.forall_mem_cons]
  exact ⟨(F.k32_writes ha).trans (by rw [hg, shiftAmount_word32]),
    (F.x32_writes ha hb).trans (by rw [hg, shiftAmount_low32]),
    (F.k64_writes ha).trans (by rw [hg, shiftAmount_sext64]),
    (F.x64_writes ha hb).trans (by rw [hg, shiftAmount_word]), List.forall_mem_nil _⟩

/-- What the four forms write when their divisor is zero: the operation's own answer `z` for it (rules R155, R156). -/
theorem AluForms.writes_of_zero_divisor (F : AluForms f k32 x32 k64 x64) {z : ∀ n : Nat, BitVec n → BitVec n}
    (hz : ∀ n (x : BitVec n), f n x 0#n = z n x) (ha : s.reg dst = some a) (hb : s.reg src = some b) :
    (imm = 0 → exec (k32 dst imm) s = s.writeNext dst ((z 32 (low32 a)).setWidth 64)) ∧
    (low32 b = 0 → exec (x32 dst src) s = s.writeNext dst ((z 32 (low32 a)).setWidth 64)) ∧
    (imm = 0 → exec (k64 dst imm) s = s.writeNext dst ((z 64 a).setWidth 64)) ∧
    (b = 0 → exec (x64 dst src) s = s.writeNext dst ((z 64 a).setWidth 64)) := by
  refine ⟨fun h => ?k32, fun h => ?x32, fun h => ?k64, fun h => ?x64⟩
  case k32 => rw [F.k32_writes ha, h, ← hz]; rfl
  case x32 => rw [F.x32_writes ha hb, h, ← hz]; rfl
  case k64 => rw [F.k64_writes ha, h, ← hz]; rfl
  case x64 => rw [F.x64_writes ha hb, h, ← hz]; rfl

/-- A signed division by zero writes 0 under either `SDIV_OVERFLOW`, and draws nothing (rules R155, R158). -/
theorem State.writeQuotient_of_zero {n : Nat} {x y : BitVec n} (hn : 0 < n) (hy : y = 0#n) :
    s.writeQuotient dst x y = s.writeNext dst 0 := by
  simp [State.writeQuotient, hy, sdivOverflows_zero hn]

/-- The four signed divisions when the divisor is zero (rule R155). -/
theorem exec_sdiv_zero (ha : s.reg dst = some a) (hb : s.reg src = some b) :
    (imm = 0 → exec (.aluSdivK dst imm) s = s.writeNext dst 0) ∧
    (low32 b = 0 → exec (.aluSdivX dst src) s = s.writeNext dst 0) ∧
    (imm = 0 → exec (.alu64SdivK dst imm) s = s.writeNext dst 0) ∧
    (b = 0 → exec (.alu64SdivX dst src) s = s.writeNext dst 0) := by
  have readDst (k : Word → StepResult) : s.withReg dst k = k a := State.withReg_of_some _ _ _ _ ha
  have readBoth (k : Word → Word → StepResult) : (s.withReg dst fun v => s.withReg src (k v)) = k a b :=
    (readDst _).trans (State.withReg_of_some _ _ _ _ hb)
  exact ⟨fun h => (readDst _).trans (State.writeQuotient_of_zero (by decide) h),
    fun h => (readBoth _).trans (State.writeQuotient_of_zero (by decide) h),
    fun h => (readDst _).trans (State.writeQuotient_of_zero (by decide) (h ▸ rfl)),
    fun h => (readBoth _).trans (State.writeQuotient_of_zero (by decide) h)⟩

end operands

/-! ### The statements -/

/-- Settles O21: `DIV` and `MOD` are quotient and remainder on the unsigned operands of each form. -/
theorem unsignedDivisionAndModulo : Obligations.UnsignedDivisionAndModulo := by
  intro s dst src imm a b ha hb
  refine ⟨fun p hp _ => divForms.writes_of_unsigned (fun _ => toNat_opDiv) ha hb p hp, fun p hp hne => ?_⟩
  have hrem : p.2.2.1 - p.2.2.2 * (p.2.2.1 / p.2.2.2) = p.2.2.1 % p.2.2.2 := (Nat.mod_eq_sub_mul_div).symm
  rw [hrem]
  exact ⟨Nat.mod_lt _ (Nat.pos_of_ne_zero hne), modForms.writes_of_unsigned (fun _ => toNat_opMod) ha hb p hp⟩

/-- Settles O22: the divisor tested in each of the eight forms is the `n`-bit one that the operation gets. -/
theorem divisionByZeroGivesZero : Obligations.DivisionByZeroGivesZero := by
  intro s dst src imm a b ha hb
  constructor
  · obtain ⟨divK, divX, div64K, div64X⟩ := divForms.writes_of_zero_divisor (imm := imm) (fun _ => opDiv_zero) ha hb
    obtain ⟨sdivK, sdivX, sdiv64K, sdiv64X⟩ := exec_sdiv_zero (imm := imm) ha hb
    simp only [List.forall_mem_cons, beq_iff_eq]
    exact ⟨divK, div64K, sdivK, sdiv64K, divX, sdivX, div64X, sdiv64X, List.forall_mem_nil _⟩
  · intro p hp
    have hdiv : (if p.2.2.2 ≠ 0 then p.2.2.1 / p.2.2.2 else 0) = p.2.2.1 / p.2.2.2 := by
      split
      · rfl
      · next h => rw [not_not.mp h, Nat.div_zero]
    rw [hdiv]
    exact divForms.writes_of_unsigned (fun _ => toNat_opDiv) ha hb p hp

/-- Settles O23: with a zero divisor the operation gives back its dividend, so `ALU64` writes the register's own value and
`ALU` its low half. -/
theorem moduloByZeroKeepsTheDividend : Obligations.ModuloByZeroKeepsTheDividend := by
  intro s dst src imm a b ha hb
  obtain ⟨modK, modX, mod64K, mod64X⟩ := modForms.writes_of_zero_divisor (imm := imm) (fun _ => opMod_zero) ha hb
  obtain ⟨smodK, smodX, smod64K, smod64X⟩ := smodForms.writes_of_zero_divisor (imm := imm) (fun _ => opSmod_zero) ha hb
  refine ⟨?keeps, ?keepsLow, fun p hp => ?unsigned⟩
  case keeps =>
    have hself : s.writeNext dst (a.setWidth 64) = .next { s with pc := s.pc + 1 } := by
      rw [BitVec.setWidth_eq, State.writeNext_self ha]
    rw [hself] at mod64K mod64X smod64K smod64X
    simp only [List.forall_mem_cons, beq_iff_eq]
    exact ⟨mod64K, smod64K, mod64X, smod64X, List.forall_mem_nil _⟩
  case keepsLow =>
    have hlow : (low32 a).setWidth 64 = BitVec.ofNat 64 (a.toNat % 2 ^ 32) := by
      rw [← BitVec.ofNat_toNat, low32, BitVec.toNat_setWidth]
    rw [hlow] at modK modX smodK smodX
    simp only [List.forall_mem_cons, beq_iff_eq]
    exact ⟨modK, smodK, modX, smodX, List.forall_mem_nil _⟩
  case unsigned =>
    have hmod : (if p.2.2.2 ≠ 0 then p.2.2.1 % p.2.2.2 else p.2.2.1) = p.2.2.1 % p.2.2.2 := by
      split
      · rfl
      · next h => rw [not_not.mp h, Nat.mod_zero]
    rw [hmod]
    exact modForms.writes_of_unsigned (fun _ => toNat_opMod) ha hb p hp

/-- Settles O27: the three operations on integers, with the amount taken from the source operand as it stands. -/
theorem shiftResults : Obligations.ShiftResults := by
  intro s dst src imm a b ha hb
  refine ⟨?lsh, ?rsh, ?arsh⟩
  case lsh =>
    exact lshForms.writes_of_shift (u := @BitVec.toNat) (g := fun n x sh => BitVec.ofNat 64 (x * 2 ^ sh % 2 ^ n))
      (fun n x y => by rw [← toNat_opLsh, BitVec.ofNat_toNat]) ha hb
  case rsh =>
    exact rshForms.writes_of_shift (u := @BitVec.toNat) (g := fun _ x sh => BitVec.ofNat 64 (x / 2 ^ sh))
      (fun n x y => by rw [← toNat_opRsh, BitVec.ofNat_toNat]) ha hb
  case arsh =>
    exact arshForms.writes_of_shift (u := @BitVec.toInt) (g := fun n x sh => BitVec.ofInt 64 (x / 2 ^ sh % 2 ^ n))
      (fun n x y => by rw [setWidth_eq_ofInt, toInt_opArsh]) ha hb

end Sys2Proof.Machine
end

section
/-!
SUPPORT. Conformance groups: the table `Instr.group` against rule R3 read off the fields of the slot, and the statement
about the groups of the byte swaps (41_byteswap.md).
-/

namespace Sys2Proof

/-- Rule R3 at the three 'opcode' bytes of code `END` (rule R240): the width decides, in either class (rule R243). -/
theorem groupOf_swap {opcode : BitVec 8} (h : opcode ∈ [0xd4#8, 0xdc#8, 0xd7#8]) (width : Word32) :
    Expected.groupOf opcode width = if width = 64 then .base64 else .base32 := by
  simp only [List.mem_cons, List.not_mem_nil, or_false] at h
  obtain rfl | rfl | rfl := h <;> rfl

/-- Rule R3 places every instruction but `EXIT`. Only for a byte swap does 'imm' have a part in it, and there 'imm' is
the width that the instruction's name fixes; for every other instruction 'opcode' alone decides, whatever the operands. -/
theorem Instr.group_eq_groupOf {i : Instr} (hne : i ≠ .jmpExit) :
    i.group = Expected.groupOf i.fields.opcode i.fields.imm := by
  cases i with
  | jmpExit => exact absurd rfl hne
  | aluEndToLe16 | aluEndToLe32 | aluEndToLe64 | aluEndToBe16 | aluEndToBe32 | aluEndToBe64
  | alu64EndBswap16 | alu64EndBswap32 | alu64EndBswap64 =>
    dsimp only [Instr.fields, fieldsDst]
    rw [groupOf_swap]
    · rfl
    · decide
  | _ =>
    dsimp only [Instr.fields, fieldsDst, fieldsDstImm, fieldsDstSrc, fieldsDstOffImm, fieldsDstSrcOff, fieldsImm]
    rfl

/-- Settles O60: the nine swaps by the group table, every instruction but `EXIT` by the reading of rule R3. -/
theorem swapGroupsFollowTheWidth : Obligations.SwapGroupsFollowTheWidth := by
  refine ⟨fun dst => ?swaps, fun i hne => Instr.group_eq_groupOf hne⟩
  case swaps =>
    simp only [List.forall_mem_cons]
    exact ⟨rfl, rfl, rfl, rfl, rfl, rfl, rfl, rfl, rfl, List.forall_mem_nil _⟩

end Sys2Proof
end

section
/-!
SUPPORT. Encoding and decoding: every instruction's slots and bytes decode to it and nothing else does (rules R113, R120,
R127 to R135), and what a step makes of the slots at the program counter (rules R452, R455, R456).
-/

namespace Sys2Proof

/-! ### Every instruction's fields decode to it -/

/-- The fields of every instruction decode to it, assembled from the lemma of each constructor. -/
theorem decodeFields_fields (i : Instr) : Laws.FieldsRoundTrip.Statement i :=
  match i with
  | .aluAddK _ _ => Laws.FieldsRoundTrip.aluAddK _ _
  | .aluAddX _ _ => Laws.FieldsRoundTrip.aluAddX _ _
  | .alu64AddK _ _ => Laws.FieldsRoundTrip.alu64AddK _ _
  | .alu64AddX _ _ => Laws.FieldsRoundTrip.alu64AddX _ _
  | .aluSubK _ _ => Laws.FieldsRoundTrip.aluSubK _ _
  | .aluSubX _ _ => Laws.FieldsRoundTrip.aluSubX _ _
  | .alu64SubK _ _ => Laws.FieldsRoundTrip.alu64SubK _ _
  | .alu64SubX _ _ => Laws.FieldsRoundTrip.alu64SubX _ _
  | .aluMulK _ _ => Laws.FieldsRoundTrip.aluMulK _ _
  | .aluMulX _ _ => Laws.FieldsRoundTrip.aluMulX _ _
  | .alu64MulK _ _ => Laws.FieldsRoundTrip.alu64MulK _ _
  | .alu64MulX _ _ => Laws.FieldsRoundTrip.alu64MulX _ _
  | .aluDivK _ _ => Laws.FieldsRoundTrip.aluDivK _ _
  | .aluDivX _ _ => Laws.FieldsRoundTrip.aluDivX _ _
  | .alu64DivK _ _ => Laws.FieldsRoundTrip.alu64DivK _ _
  | .alu64DivX _ _ => Laws.FieldsRoundTrip.alu64DivX _ _
  | .aluSdivK _ _ => Laws.FieldsRoundTrip.aluSdivK _ _
  | .aluSdivX _ _ => Laws.FieldsRoundTrip.aluSdivX _ _
  | .alu64SdivK _ _ => Laws.FieldsRoundTrip.alu64SdivK _ _
  | .alu64SdivX _ _ => Laws.FieldsRoundTrip.alu64SdivX _ _
  | .aluOrK _ _ => Laws.FieldsRoundTrip.aluOrK _ _
  | .aluOrX _ _ => Laws.FieldsRoundTrip.aluOrX _ _
  | .alu64OrK _ _ => Laws.FieldsRoundTrip.alu64OrK _ _
  | .alu64OrX _ _ => Laws.FieldsRoundTrip.alu64OrX _ _
  | .aluAndK _ _ => Laws.FieldsRoundTrip.aluAndK _ _
  | .aluAndX _ _ => Laws.FieldsRoundTrip.aluAndX _ _
  | .alu64AndK _ _ => Laws.FieldsRoundTrip.alu64AndK _ _
  | .alu64AndX _ _ => Laws.FieldsRoundTrip.alu64AndX _ _
  | .aluLshK _ _ => Laws.FieldsRoundTrip.aluLshK _ _
  | .aluLshX _ _ => Laws.FieldsRoundTrip.aluLshX _ _
  | .alu64LshK _ _ => Laws.FieldsRoundTrip.alu64LshK _ _
  | .alu64LshX _ _ => Laws.FieldsRoundTrip.alu64LshX _ _
  | .aluRshK _ _ => Laws.FieldsRoundTrip.aluRshK _ _
  | .aluRshX _ _ => Laws.FieldsRoundTrip.aluRshX _ _
  | .alu64RshK _ _ => Laws.FieldsRoundTrip.alu64RshK _ _
  | .alu64RshX _ _ => Laws.FieldsRoundTrip.alu64RshX _ _
  | .aluNegK _ => Laws.FieldsRoundTrip.aluNegK _
  | .alu64NegK _ => Laws.FieldsRoundTrip.alu64NegK _
  | .aluModK _ _ => Laws.FieldsRoundTrip.aluModK _ _
  | .aluModX _ _ => Laws.FieldsRoundTrip.aluModX _ _
  | .alu64ModK _ _ => Laws.FieldsRoundTrip.alu64ModK _ _
  | .alu64ModX _ _ => Laws.FieldsRoundTrip.alu64ModX _ _
  | .aluSmodK _ _ => Laws.FieldsRoundTrip.aluSmodK _ _
  | .aluSmodX _ _ => Laws.FieldsRoundTrip.aluSmodX _ _
  | .alu64SmodK _ _ => Laws.FieldsRoundTrip.alu64SmodK _ _
  | .alu64SmodX _ _ => Laws.FieldsRoundTrip.alu64SmodX _ _
  | .aluXorK _ _ => Laws.FieldsRoundTrip.aluXorK _ _
  | .aluXorX _ _ => Laws.FieldsRoundTrip.aluXorX _ _
  | .alu64XorK _ _ => Laws.FieldsRoundTrip.alu64XorK _ _
  | .alu64XorX _ _ => Laws.FieldsRoundTrip.alu64XorX _ _
  | .aluMovK _ _ => Laws.FieldsRoundTrip.aluMovK _ _
  | .aluMovX _ _ => Laws.FieldsRoundTrip.aluMovX _ _
  | .alu64MovK _ _ => Laws.FieldsRoundTrip.alu64MovK _ _
  | .alu64MovX _ _ => Laws.FieldsRoundTrip.alu64MovX _ _
  | .aluMovsx8X _ _ => Laws.FieldsRoundTrip.aluMovsx8X _ _
  | .aluMovsx16X _ _ => Laws.FieldsRoundTrip.aluMovsx16X _ _
  | .alu64Movsx8X _ _ => Laws.FieldsRoundTrip.alu64Movsx8X _ _
  | .alu64Movsx16X _ _ => Laws.FieldsRoundTrip.alu64Movsx16X _ _
  | .alu64Movsx32X _ _ => Laws.FieldsRoundTrip.alu64Movsx32X _ _
  | .aluArshK _ _ => Laws.FieldsRoundTrip.aluArshK _ _
  | .aluArshX _ _ => Laws.FieldsRoundTrip.aluArshX _ _
  | .alu64ArshK _ _ => Laws.FieldsRoundTrip.alu64ArshK _ _
  | .alu64ArshX _ _ => Laws.FieldsRoundTrip.alu64ArshX _ _
  | .aluEndToLe16 _ => Laws.FieldsRoundTrip.aluEndToLe16 _
  | .aluEndToLe32 _ => Laws.FieldsRoundTrip.aluEndToLe32 _
  | .aluEndToLe64 _ => Laws.FieldsRoundTrip.aluEndToLe64 _
  | .aluEndToBe16 _ => Laws.FieldsRoundTrip.aluEndToBe16 _
  | .aluEndToBe32 _ => Laws.FieldsRoundTrip.aluEndToBe32 _
  | .aluEndToBe64 _ => Laws.FieldsRoundTrip.aluEndToBe64 _
  | .alu64EndBswap16 _ => Laws.FieldsRoundTrip.alu64EndBswap16 _
  | .alu64EndBswap32 _ => Laws.FieldsRoundTrip.alu64EndBswap32 _
  | .alu64EndBswap64 _ => Laws.FieldsRoundTrip.alu64EndBswap64 _
  | .jmpJa _ => Laws.FieldsRoundTrip.jmpJa _
  | .jmp32Ja _ => Laws.FieldsRoundTrip.jmp32Ja _
  | .jmpJeqK _ _ _ => Laws.FieldsRoundTrip.jmpJeqK _ _ _
  | .jmpJeqX _ _ _ => Laws.FieldsRoundTrip.jmpJeqX _ _ _
  | .jmp32JeqK _ _ _ => Laws.FieldsRoundTrip.jmp32JeqK _ _ _
  | .jmp32JeqX _ _ _ => Laws.FieldsRoundTrip.jmp32JeqX _ _ _
  | .jmpJgtK _ _ _ => Laws.FieldsRoundTrip.jmpJgtK _ _ _
  | .jmpJgtX _ _ _ => Laws.FieldsRoundTrip.jmpJgtX _ _ _
  | .jmp32JgtK _ _ _ => Laws.FieldsRoundTrip.jmp32JgtK _ _ _
  | .jmp32JgtX _ _ _ => Laws.FieldsRoundTrip.jmp32JgtX _ _ _
  | .jmpJgeK _ _ _ => Laws.FieldsRoundTrip.jmpJgeK _ _ _
  | .jmpJgeX _ _ _ => Laws.FieldsRoundTrip.jmpJgeX _ _ _
  | .jmp32JgeK _ _ _ => Laws.FieldsRoundTrip.jmp32JgeK _ _ _
  | .jmp32JgeX _ _ _ => Laws.FieldsRoundTrip.jmp32JgeX _ _ _
  | .jmpJsetK _ _ _ => Laws.FieldsRoundTrip.jmpJsetK _ _ _
  | .jmpJsetX _ _ _ => Laws.FieldsRoundTrip.jmpJsetX _ _ _
  | .jmp32JsetK _ _ _ => Laws.FieldsRoundTrip.jmp32JsetK _ _ _
  | .jmp32JsetX _ _ _ => Laws.FieldsRoundTrip.jmp32JsetX _ _ _
  | .jmpJneK _ _ _ => Laws.FieldsRoundTrip.jmpJneK _ _ _
  | .jmpJneX _ _ _ => Laws.FieldsRoundTrip.jmpJneX _ _ _
  | .jmp32JneK _ _ _ => Laws.FieldsRoundTrip.jmp32JneK _ _ _
  | .jmp32JneX _ _ _ => Laws.FieldsRoundTrip.jmp32JneX _ _ _
  | .jmpJsgtK _ _ _ => Laws.FieldsRoundTrip.jmpJsgtK _ _ _
  | .jmpJsgtX _ _ _ => Laws.FieldsRoundTrip.jmpJsgtX _ _ _
  | .jmp32JsgtK _ _ _ => Laws.FieldsRoundTrip.jmp32JsgtK _ _ _
  | .jmp32JsgtX _ _ _ => Laws.FieldsRoundTrip.jmp32JsgtX _ _ _
  | .jmpJsgeK _ _ _ => Laws.FieldsRoundTrip.jmpJsgeK _ _ _
  | .jmpJsgeX _ _ _ => Laws.FieldsRoundTrip.jmpJsgeX _ _ _
  | .jmp32JsgeK _ _ _ => Laws.FieldsRoundTrip.jmp32JsgeK _ _ _
  | .jmp32JsgeX _ _ _ => Laws.FieldsRoundTrip.jmp32JsgeX _ _ _
  | .jmpJltK _ _ _ => Laws.FieldsRoundTrip.jmpJltK _ _ _
  | .jmpJltX _ _ _ => Laws.FieldsRoundTrip.jmpJltX _ _ _
  | .jmp32JltK _ _ _ => Laws.FieldsRoundTrip.jmp32JltK _ _ _
  | .jmp32JltX _ _ _ => Laws.FieldsRoundTrip.jmp32JltX _ _ _
  | .jmpJleK _ _ _ => Laws.FieldsRoundTrip.jmpJleK _ _ _
  | .jmpJleX _ _ _ => Laws.FieldsRoundTrip.jmpJleX _ _ _
  | .jmp32JleK _ _ _ => Laws.FieldsRoundTrip.jmp32JleK _ _ _
  | .jmp32JleX _ _ _ => Laws.FieldsRoundTrip.jmp32JleX _ _ _
  | .jmpJsltK _ _ _ => Laws.FieldsRoundTrip.jmpJsltK _ _ _
  | .jmpJsltX _ _ _ => Laws.FieldsRoundTrip.jmpJsltX _ _ _
  | .jmp32JsltK _ _ _ => Laws.FieldsRoundTrip.jmp32JsltK _ _ _
  | .jmp32JsltX _ _ _ => Laws.FieldsRoundTrip.jmp32JsltX _ _ _
  | .jmpJsleK _ _ _ => Laws.FieldsRoundTrip.jmpJsleK _ _ _
  | .jmpJsleX _ _ _ => Laws.FieldsRoundTrip.jmpJsleX _ _ _
  | .jmp32JsleK _ _ _ => Laws.FieldsRoundTrip.jmp32JsleK _ _ _
  | .jmp32JsleX _ _ _ => Laws.FieldsRoundTrip.jmp32JsleX _ _ _
  | .jmpCallHelper _ => Laws.FieldsRoundTrip.jmpCallHelper _
  | .jmpCallLocal _ => Laws.FieldsRoundTrip.jmpCallLocal _
  | .jmpCallBtf _ => Laws.FieldsRoundTrip.jmpCallBtf _
  | .jmpExit => Laws.FieldsRoundTrip.jmpExit
  | .ldxMemW _ _ _ => Laws.FieldsRoundTrip.ldxMemW _ _ _
  | .ldxMemH _ _ _ => Laws.FieldsRoundTrip.ldxMemH _ _ _
  | .ldxMemB _ _ _ => Laws.FieldsRoundTrip.ldxMemB _ _ _
  | .ldxMemDw _ _ _ => Laws.FieldsRoundTrip.ldxMemDw _ _ _
  | .ldxMemsxW _ _ _ => Laws.FieldsRoundTrip.ldxMemsxW _ _ _
  | .ldxMemsxH _ _ _ => Laws.FieldsRoundTrip.ldxMemsxH _ _ _
  | .ldxMemsxB _ _ _ => Laws.FieldsRoundTrip.ldxMemsxB _ _ _
  | .stMemW _ _ _ => Laws.FieldsRoundTrip.stMemW _ _ _
  | .stMemH _ _ _ => Laws.FieldsRoundTrip.stMemH _ _ _
  | .stMemB _ _ _ => Laws.FieldsRoundTrip.stMemB _ _ _
  | .stMemDw _ _ _ => Laws.FieldsRoundTrip.stMemDw _ _ _
  | .stxMemW _ _ _ => Laws.FieldsRoundTrip.stxMemW _ _ _
  | .stxMemH _ _ _ => Laws.FieldsRoundTrip.stxMemH _ _ _
  | .stxMemB _ _ _ => Laws.FieldsRoundTrip.stxMemB _ _ _
  | .stxMemDw _ _ _ => Laws.FieldsRoundTrip.stxMemDw _ _ _
  | .stxAtomicWAdd _ _ _ => Laws.FieldsRoundTrip.stxAtomicWAdd _ _ _
  | .stxAtomicDwAdd _ _ _ => Laws.FieldsRoundTrip.stxAtomicDwAdd _ _ _
  | .stxAtomicWOr _ _ _ => Laws.FieldsRoundTrip.stxAtomicWOr _ _ _
  | .stxAtomicDwOr _ _ _ => Laws.FieldsRoundTrip.stxAtomicDwOr _ _ _
  | .stxAtomicWAnd _ _ _ => Laws.FieldsRoundTrip.stxAtomicWAnd _ _ _
  | .stxAtomicDwAnd _ _ _ => Laws.FieldsRoundTrip.stxAtomicDwAnd _ _ _
  | .stxAtomicWXor _ _ _ => Laws.FieldsRoundTrip.stxAtomicWXor _ _ _
  | .stxAtomicDwXor _ _ _ => Laws.FieldsRoundTrip.stxAtomicDwXor _ _ _
  | .stxAtomicWAddFetch _ _ _ => Laws.FieldsRoundTrip.stxAtomicWAddFetch _ _ _
  | .stxAtomicDwAddFetch _ _ _ => Laws.FieldsRoundTrip.stxAtomicDwAddFetch _ _ _
  | .stxAtomicWOrFetch _ _ _ => Laws.FieldsRoundTrip.stxAtomicWOrFetch _ _ _
  | .stxAtomicDwOrFetch _ _ _ => Laws.FieldsRoundTrip.stxAtomicDwOrFetch _ _ _
  | .stxAtomicWAndFetch _ _ _ => Laws.FieldsRoundTrip.stxAtomicWAndFetch _ _ _
  | .stxAtomicDwAndFetch _ _ _ => Laws.FieldsRoundTrip.stxAtomicDwAndFetch _ _ _
  | .stxAtomicWXorFetch _ _ _ => Laws.FieldsRoundTrip.stxAtomicWXorFetch _ _ _
  | .stxAtomicDwXorFetch _ _ _ => Laws.FieldsRoundTrip.stxAtomicDwXorFetch _ _ _
  | .stxAtomicWXchg _ _ _ => Laws.FieldsRoundTrip.stxAtomicWXchg _ _ _
  | .stxAtomicDwXchg _ _ _ => Laws.FieldsRoundTrip.stxAtomicDwXchg _ _ _
  | .stxAtomicWCmpxchg _ _ _ => Laws.FieldsRoundTrip.stxAtomicWCmpxchg _ _ _
  | .stxAtomicDwCmpxchg _ _ _ => Laws.FieldsRoundTrip.stxAtomicDwCmpxchg _ _ _
  | .ldImm64 _ _ _ => Laws.FieldsRoundTrip.ldImm64 _ _ _
  | .ldMapByFd _ _ => Laws.FieldsRoundTrip.ldMapByFd _ _
  | .ldMapValByFd _ _ _ => Laws.FieldsRoundTrip.ldMapValByFd _ _ _
  | .ldVarAddr _ _ => Laws.FieldsRoundTrip.ldVarAddr _ _
  | .ldCodeAddr _ _ => Laws.FieldsRoundTrip.ldCodeAddr _ _
  | .ldMapByIdx _ _ => Laws.FieldsRoundTrip.ldMapByIdx _ _
  | .ldMapValByIdx _ _ _ => Laws.FieldsRoundTrip.ldMapValByIdx _ _ _
  | .ldAbsW _ => Laws.FieldsRoundTrip.ldAbsW _
  | .ldAbsH _ => Laws.FieldsRoundTrip.ldAbsH _
  | .ldAbsB _ => Laws.FieldsRoundTrip.ldAbsB _
  | .ldIndW _ _ => Laws.FieldsRoundTrip.ldIndW _ _
  | .ldIndH _ _ => Laws.FieldsRoundTrip.ldIndH _ _
  | .ldIndB _ _ => Laws.FieldsRoundTrip.ldIndB _ _

/-- The registers that the fields of an instruction name are numbered 0 to 10 (rule R128). -/
theorem Instr.fields_regs_le (i : Instr) : i.fields.dst.toNat ≤ 10 ∧ i.fields.src.toNat ≤ 10 := by
  have hnum (r : Reg) : r.num.toNat ≤ 10 := by cases r <;> decide
  cases i <;> simp [Instr.fields, fieldsDstImm, fieldsDstSrc, fieldsDst, fieldsDstOffImm, fieldsDstSrcOff, fieldsImm, hnum]

/-! ### The platform's checks -/

/-- The two checks that depend on the platform let exactly the well-formed instructions through (rules R131, R35). -/
theorem platformCheck_eq_ok {p : Params} {i j : Instr} : platformCheck p i = .ok j ↔ i = j ∧ i.WellFormed p := by
  unfold platformCheck Instr.WellFormed Instr.GroupSupported Instr.KeepsR10
  split
  · next hs =>
    split
    · next hr => simp_all
    · next hr => simp_all
  · next hs => simp_all

/-- The slots of an instruction decode to it, as far as the platform lets it through. -/
theorem decode_of_encoded {p : Params} {i : Instr} {second : Option Slot}
    (h : ∀ n, i.nextImm = some n → second = some ((secondFields n).toSlot p.hostEndian)) :
    decode p (i.fields.toSlot p.hostEndian) second = platformCheck p i := by
  have hfields := decodeFields_fields i (second.map (.ofSlot p.hostEndian)) fun n hn => by
    rw [h n hn, Option.map_some, Fields.ofSlot_toSlot]
  simp only [decode, Fields.ofSlot_toSlot, hfields]

/-- `Decode` of a slot answers an instruction exactly when it is well-formed, the slot holds its fields, and its
'next_imm', where it has one, stands in the slot after it (rules R104, R113). -/
theorem decode_eq_ok {p : Params} {first : Slot} {second : Option Slot} {i : Instr} :
    decode p first second = .ok i ↔ i.WellFormed p ∧ first = i.fields.toSlot p.hostEndian ∧
      ∀ n, i.nextImm = some n → second = some ((secondFields n).toSlot p.hostEndian) := by
  constructor
  · intro h
    unfold decode at h
    split at h
    · cases h
    · next j hj =>
      obtain ⟨rfl, hwf⟩ := platformCheck_eq_ok.mp h
      obtain ⟨hfields, hnext⟩ := decodeFields_ok hj
      refine ⟨hwf, by rw [hfields, Fields.toSlot_ofSlot], fun n hn => ?_⟩
      obtain ⟨slot, hslot, heq⟩ := Option.map_eq_some_iff.mp (hnext n hn)
      rw [hslot, ← heq, Fields.toSlot_ofSlot]
  · rintro ⟨hwf, rfl, hnext⟩
    rw [decode_of_encoded hnext]
    exact platformCheck_eq_ok.mpr ⟨rfl, hwf⟩

/-! ### Bytes -/

/-- Taking a slot from bytes takes its eight bytes and nothing else. -/
theorem takeSlot_eq_some {bs rest : List Byte} {slot : Slot} :
    takeSlot bs = some (slot, rest) ↔ bs = slot.bytes ++ rest := by
  constructor
  · intro h
    unfold takeSlot at h
    split at h
    · cases h
      simp only [Slot.bytes, slotByte_slotOfBytes, List.cons_append, List.nil_append]
    · cases h
  · rintro rfl
    exact takeSlot_bytes slot rest

/-- The bytes of an instruction without a second slot. -/
theorem encodeBytes_of_none {e : Endian} {i : Instr} (h : i.nextImm = none) :
    encodeBytes e i = (i.fields.toSlot e).bytes := by
  simp [encodeBytes, encode, h]

/-- The bytes of an instruction with a second slot. -/
theorem encodeBytes_of_some {e : Endian} {i : Instr} {n : Word32} (h : i.nextImm = some n) :
    encodeBytes e i = (i.fields.toSlot e).bytes ++ ((secondFields n).toSlot e).bytes := by
  simp [encodeBytes, encode, h]

/-- Settles O1: both slots of a wide instruction are taken back; after a basic one, what follows is not looked at. -/
theorem decodeUndoesEncode : Obligations.DecodeUndoesEncode := by
  intro p i rest hwf
  have hdecode (second : Option Slot)
      (h : ∀ n, i.nextImm = some n → second = some ((secondFields n).toSlot p.hostEndian)) :
      decode p (i.fields.toSlot p.hostEndian) second = .ok i := decode_eq_ok.mpr ⟨hwf, rfl, h⟩
  obtain ⟨hlen, -, hnext⟩ | ⟨hlen, -, n, hnext⟩ := i.length_cases
  · have hbasic (second : Option Slot) := hdecode second (by simp [hnext])
    rw [encodeBytes_of_none hnext]
    simp only [decodeBytes, takeSlot_bytes]
    split <;> simp [hbasic, hlen]
  · have hwide := hdecode (some ((secondFields n).toSlot p.hostEndian)) (by simp [hnext])
    rw [encodeBytes_of_some hnext, List.append_assoc]
    simp [decodeBytes, takeSlot_bytes, hwide, hlen]

/-- Settles O2: the slots that the byte decoder took are those of the instruction, so their bytes are its encoding. -/
theorem encodeUndoesDecode : Obligations.EncodeUndoesDecode := by
  intro p bs i rest h
  unfold decodeBytes at h
  split at h
  · cases h
  · next first rest₁ hfirst =>
    rw [takeSlot_eq_some.mp hfirst]
    split at h
    · split at h
      · cases h
      · next j hj =>
        cases h
        obtain ⟨hwf, rfl, hsecond⟩ := decode_eq_ok.mp hj
        have hnext : i.nextImm = none := Option.eq_none_iff_forall_ne_some.mpr fun n hn => nomatch hsecond n hn
        exact ⟨by rw [encodeBytes_of_none hnext], hwf⟩
    · next second rest₂ htake =>
      split at h
      · cases h
      · next j hj =>
        cases h
        obtain ⟨hwf, rfl, hsecond⟩ := decode_eq_ok.mp hj
        refine ⟨?_, hwf⟩
        obtain ⟨hlen, -, hnext⟩ | ⟨hlen, -, n, hnext⟩ := i.length_cases
        · rw [encodeBytes_of_none hnext, if_neg (by omega)]
        · rw [encodeBytes_of_some hnext, if_pos hlen, takeSlot_eq_some.mp htake, Option.some.inj (hsecond n hnext),
            List.append_assoc]

/-! ### Undefined opcodes (rule R127) -/

/-- An answer other than that 'opcode' is undefined. -/
def OpcodeDefined (d : Decoded) : Prop := d ≠ .error .undefinedOpcode

@[simp] theorem opcodeDefined_ok (i : Instr) : OpcodeDefined (.ok i) := nofun

@[simp] theorem opcodeDefined_error {e : DecodeError} : OpcodeDefined (.error e) ↔ e ≠ .undefinedOpcode := by
  simp [OpcodeDefined]

@[simp] theorem opcodeDefined_useReg {n : BitVec 4} {k : Reg → Decoded} (h : ∀ r, OpcodeDefined (k r)) :
    OpcodeDefined (useReg n k) := by
  unfold useReg
  split
  · exact h _
  · simp

@[simp] theorem opcodeDefined_requireZero {zero : Bool} {k : Decoded} (h : OpcodeDefined k) :
    OpcodeDefined (requireZero zero k) := by
  unfold requireZero
  split
  · exact h
  · simp

@[simp] theorem opcodeDefined_formDstImm (f : Fields) (c : Reg → Word32 → Instr) : OpcodeDefined (formDstImm f c) := by
  simp [formDstImm]

@[simp] theorem opcodeDefined_formDstSrc (f : Fields) (c : Reg → Reg → Instr) : OpcodeDefined (formDstSrc f c) :=
  opcodeDefined_requireZero (by simp)

@[simp] theorem opcodeDefined_formDst (f : Fields) (c : Reg → Instr) : OpcodeDefined (formDst f c) := by
  simp [formDst]

@[simp] theorem opcodeDefined_formDstOffImm (f : Fields) (c : Reg → BitVec 16 → Word32 → Instr) :
    OpcodeDefined (formDstOffImm f c) := by
  simp [formDstOffImm]

@[simp] theorem opcodeDefined_formDstSrcOffAnyImm (f : Fields) (c : Reg → Reg → BitVec 16 → Instr) :
    OpcodeDefined (formDstSrcOffAnyImm f c) := by
  simp [formDstSrcOffAnyImm]

@[simp] theorem opcodeDefined_formDstSrcOff (f : Fields) (c : Reg → Reg → BitVec 16 → Instr) :
    OpcodeDefined (formDstSrcOff f c) := by
  simp [formDstSrcOff]

@[simp] theorem opcodeDefined_noOffset {f : Fields} {k : Decoded} (h : OpcodeDefined k) : OpcodeDefined (noOffset f k) := by
  simp [noOffset, h]

@[simp] theorem opcodeDefined_selectSigned {f : Fields} {u v : Decoded} (hu : OpcodeDefined u) (hv : OpcodeDefined v) :
    OpcodeDefined (selectSigned f u v) := by
  unfold selectSigned
  split <;> simp [*]

@[simp] theorem opcodeDefined_selectMove32 {f : Fields} {a b c : Decoded} (ha : OpcodeDefined a) (hb : OpcodeDefined b)
    (hc : OpcodeDefined c) : OpcodeDefined (selectMove32 f a b c) := by
  unfold selectMove32
  split <;> simp [*]

@[simp] theorem opcodeDefined_selectMove64 {f : Fields} {a b c d : Decoded} (ha : OpcodeDefined a) (hb : OpcodeDefined b)
    (hc : OpcodeDefined c) (hd : OpcodeDefined d) : OpcodeDefined (selectMove64 f a b c d) := by
  unfold selectMove64
  split <;> simp [*]

@[simp] theorem opcodeDefined_selectWidth {f : Fields} {a b c : Decoded} (ha : OpcodeDefined a) (hb : OpcodeDefined b)
    (hc : OpcodeDefined c) : OpcodeDefined (selectWidth f a b c) := by
  unfold selectWidth
  split <;> simp [*]

@[simp] theorem opcodeDefined_formAtomic (f : Fields) (c : AtomicForms) : OpcodeDefined (formAtomic f c) := by
  unfold formAtomic
  split <;> simp

@[simp] theorem opcodeDefined_formCall (f : Fields) : OpcodeDefined (formCall f) := by
  refine opcodeDefined_requireZero ?_
  split <;> simp

@[simp] theorem opcodeDefined_formAbs (f : Fields) (c : Word32 → Instr) : OpcodeDefined (formAbs f c) := by
  simp [formAbs]

@[simp] theorem opcodeDefined_formInd (f : Fields) (c : Reg → Word32 → Instr) : OpcodeDefined (formInd f c) := by
  simp [formInd]

@[simp] theorem opcodeDefined_formWide (f : Fields) (second : Option Fields) : OpcodeDefined (formWide f second) := by
  unfold formWide
  split
  · simp
  · split
    · refine opcodeDefined_requireZero ?_
      split <;> simp
    · simp

/-! The decoder of each class compares 'opcode' with the bytes of the class one after the other (rule R120). -/

/-- Class `LD`. -/
@[simp] theorem decodeLd_defined (f : Fields) (second : Option Fields) : OpcodeDefined (decodeLd f second) ↔ f.opcode.toNat ∈
    [0x18, 0x20, 0x28, 0x30, 0x40, 0x48, 0x50] := by
  unfold decodeLd
  split <;> simp_all

/-- Class `LDX`. -/
@[simp] theorem decodeLdx_defined (f : Fields) : OpcodeDefined (decodeLdx f) ↔ f.opcode.toNat ∈
    [0x61, 0x69, 0x71, 0x79, 0x81, 0x89, 0x91] := by
  unfold decodeLdx
  split <;> simp_all

/-- Class `ST`. -/
@[simp] theorem decodeSt_defined (f : Fields) : OpcodeDefined (decodeSt f) ↔ f.opcode.toNat ∈
    [0x62, 0x6a, 0x72, 0x7a] := by
  unfold decodeSt
  split <;> simp_all

/-- Class `STX`. -/
@[simp] theorem decodeStx_defined (f : Fields) : OpcodeDefined (decodeStx f) ↔ f.opcode.toNat ∈
    [0x63, 0x6b, 0x73, 0x7b, 0xc3, 0xdb] := by
  unfold decodeStx
  split <;> simp_all

/-- Class `ALU`. -/
@[simp] theorem decodeAlu_defined (f : Fields) : OpcodeDefined (decodeAlu f) ↔ f.opcode.toNat ∈
    [0x04, 0x0c, 0x14, 0x1c, 0x24, 0x2c, 0x34, 0x3c, 0x44, 0x4c, 0x54, 0x5c, 0x64, 0x6c, 0x74, 0x7c, 0x84, 0x94,
      0x9c, 0xa4, 0xac, 0xb4, 0xbc, 0xc4, 0xcc, 0xd4, 0xdc] := by
  unfold decodeAlu
  split <;> simp_all

/-- Class `JMP`. -/
@[simp] theorem decodeJmp_defined (f : Fields) : OpcodeDefined (decodeJmp f) ↔ f.opcode.toNat ∈
    [0x05, 0x15, 0x1d, 0x25, 0x2d, 0x35, 0x3d, 0x45, 0x4d, 0x55, 0x5d, 0x65, 0x6d, 0x75, 0x7d, 0x85, 0x95, 0xa5,
      0xad, 0xb5, 0xbd, 0xc5, 0xcd, 0xd5, 0xdd] := by
  unfold decodeJmp
  split <;> simp_all

/-- Class `JMP32`. -/
@[simp] theorem decodeJmp32_defined (f : Fields) : OpcodeDefined (decodeJmp32 f) ↔ f.opcode.toNat ∈
    [0x06, 0x16, 0x1e, 0x26, 0x2e, 0x36, 0x3e, 0x46, 0x4e, 0x56, 0x5e, 0x66, 0x6e, 0x76, 0x7e, 0xa6, 0xae, 0xb6,
      0xbe, 0xc6, 0xce, 0xd6, 0xde] := by
  unfold decodeJmp32
  split <;> simp_all

/-- Class `ALU64`. -/
@[simp] theorem decodeAlu64_defined (f : Fields) : OpcodeDefined (decodeAlu64 f) ↔ f.opcode.toNat ∈
    [0x07, 0x0f, 0x17, 0x1f, 0x27, 0x2f, 0x37, 0x3f, 0x47, 0x4f, 0x57, 0x5f, 0x67, 0x6f, 0x77, 0x7f, 0x87, 0x97,
      0x9f, 0xa7, 0xaf, 0xb7, 0xbf, 0xc7, 0xcf, 0xd7] := by
  unfold decodeAlu64
  split <;> simp_all

/-- Settles O3: the class is read off 'opcode' (rule R107), and the bytes of the eight classes are the 125. -/
theorem undefinedOpcodesAreThe131 : Obligations.UndefinedOpcodesAreThe131 := by
  intro f second
  rw [← not_iff_not, not_not]
  change OpcodeDefined (decodeFields f second) ↔ f.opcode ∈ Expected.opcodes
  unfold decodeFields
  generalize hopcode : f.opcode = opcode
  split <;> next hclass =>
    simp only [decodeLd_defined, decodeLdx_defined, decodeSt_defined, decodeStx_defined, decodeAlu_defined,
      decodeJmp_defined, decodeJmp32_defined, decodeAlu64_defined, hopcode]
    clear hopcode
    obtain ⟨byte⟩ := opcode
    revert byte
    decide +kernel

end Sys2Proof

namespace Sys2Proof.Machine

/-! ### Decoding at the program counter -/

/-- A slot that starts an instruction decodes as the platform's `decode` of it and the slot after it says. -/
theorem decodeAt_of_slot {s : State} {n : Nat} {first : Slot} (hslot : s.program[n]? = some first)
    (hstart : isSecondSlot s.program n = false) :
    decodeAt s n = (decode s.params first s.program[n + 1]?).mapError fun _ => .illegalInstruction n := by
  simp only [decodeAt, hslot, hstart, Bool.false_eq_true, if_false]
  cases decode s.params first s.program[n + 1]? <;> rfl

/-- The slots from an index on begin with an instruction's own: its first one, and the one with its 'next_imm' where it
has one. -/
theorem encode_prefix_drop_iff {e : Endian} {i : Instr} {program : List Slot} {n : Nat} :
    encode e i <+: program.drop n ↔ program[n]? = some (i.fields.toSlot e) ∧
      ∀ v, i.nextImm = some v → program[n + 1]? = some ((secondFields v).toSlot e) := by
  have hfirst : program[n]? = (program.drop n)[0]? := by rw [List.getElem?_drop, Nat.add_zero]
  have hsecond : program[n + 1]? = (program.drop n)[1]? := by rw [List.getElem?_drop]
  rw [hfirst, hsecond, encode]
  cases i.nextImm with
  | none => cases program.drop n <;> simp [eq_comm (a := Fields.toSlot e i.fields)]
  | some v =>
    rcases program.drop n with - | ⟨a, - | ⟨b, rest⟩⟩ <;>
      simp [eq_comm (a := Fields.toSlot e i.fields), eq_comm (a := Fields.toSlot e (secondFields v))]

/-- At a slot that starts an instruction, what decodes is the well-formed instruction whose encoding stands there. -/
theorem decodeAt_eq_ok_iff {s : State} {n : Nat} {i : Instr} (hstart : isSecondSlot s.program n = false) :
    decodeAt s n = .ok i ↔ i.WellFormed s.params ∧ encode s.params.hostEndian i <+: s.program.drop n := by
  rw [encode_prefix_drop_iff]
  constructor
  · intro h
    have d := decodeAt_eq_ok h
    exact ⟨⟨d.supported, d.keepsR10⟩, d.first, d.next⟩
  · rintro ⟨hwf, hfirst, hnext⟩
    rw [decodeAt_of_slot hfirst hstart, decode_eq_ok.mpr ⟨hwf, rfl, hnext⟩, Except.mapError]

theorem step_of_decoded {s : State} {i : Instr} (hrun : s.status = .running) (h : decodeAt s s.pc = .ok i) :
    step s = exec i s := by
  simp only [step, hrun, h]

theorem step_of_decodeAt_error {s : State} {r : FaultReason} (hrun : s.status = .running)
    (h : decodeAt s s.pc = .error r) : step s = s.raise r := by
  simp only [step, hrun, h]

/-- A slot of the program that starts an instruction and decodes to none raises `IllegalInstruction` (rule R456). -/
theorem step_illegal {s : State} (hrun : s.status = .running) (hpc : s.pc < s.program.length)
    (hstart : isSecondSlot s.program s.pc = false) (h : ∀ i, decodeAt s s.pc ≠ .ok i) :
    step s = s.raise (.illegalInstruction s.pc) := by
  refine step_of_decodeAt_error hrun ?_
  have hat := decodeAt_of_slot (List.getElem?_eq_getElem hpc) hstart
  cases hd : decode s.params s.program[s.pc] s.program[s.pc + 1]? with
  | error e => rw [hat, hd, Except.mapError]
  | ok i => exact absurd (by rw [hat, hd, Except.mapError]) (h i)

/-- Settles O5. -/
theorem stepRunsTheDecodedInstruction : Obligations.StepRunsTheDecodedInstruction :=
  fun _ _ => step_of_decoded

/-- Settles O6: decoding at the program counter answers exactly the well-formed instructions encoded there. -/
theorem stepRunsTheEncodedInstruction : Obligations.StepRunsTheEncodedInstruction :=
  fun _ hrun hpc hstart =>
    ⟨fun _ hwf hprefix => step_of_decoded hrun ((decodeAt_eq_ok_iff hstart).mpr ⟨hwf, hprefix⟩),
      fun hnone => step_illegal hrun hpc hstart fun i hi =>
        have ⟨hwf, hprefix⟩ := (decodeAt_eq_ok_iff hstart).mp hi
        hnone i hwf hprefix⟩

/-! ### Why a slot holds no instruction (rules R127, R128, R131, R133 to R135) -/

theorem Instr.opcode_mem_opcodes (i : Instr) : i.fields.opcode ∈ Expected.opcodes := by
  by_contra hundefined
  have herror := (undefinedOpcodesAreThe131 i.fields (i.nextImm.map secondFields)).mpr hundefined
  rw [decodeFields_fields i _ fun n hn => by rw [hn]; rfl] at herror
  cases herror

/-- An 'opcode' of 0x18 asks for a second slot (rules R112, R134). -/
theorem Instr.exists_nextImm_of_wide {i : Instr} (h : i.fields.opcode = 0x18#8) : ∃ n, i.nextImm = some n := by
  obtain ⟨-, hne, -⟩ | ⟨-, -, hnext⟩ := i.length_cases
  · rw [h] at hne
    cases hne
  · exact hnext

/-- The low half of a second slot's logical word is zero (rule R133). -/
theorem secondFields_word_low (n : Word32) : (secondFields n).word.extractLsb' 0 32 = 0 := by
  apply BitVec.eq_of_getLsbD_eq
  intro k hk
  simp only [secondFields, Fields.word, BitVec.getLsbD_extractLsb', BitVec.getLsbD_append, BitVec.ofNat_eq_ofNat,
    BitVec.getLsbD_zero, Bool.and_eq_false_imp]
  intro _
  repeat' split
  all_goals first | rfl | omega

/-- Settles O7: had the slot decoded to an instruction, its fields would be those of the slot, and none of the causes
leaves one that they can be. -/
theorem illegalInstructionCauses : Obligations.IllegalInstructionCauses := by
  intro s first f hrun hfirst hstart hf hcause
  refine step_illegal hrun (List.getElem?_eq_some_iff.mp hfirst).1 hstart fun i hi => ?_
  have d := decodeAt_eq_ok hi
  have hslot : first = i.fields.toSlot s.params.hostEndian := Option.some.inj (hfirst.symm.trans d.first)
  rw [hslot, Fields.ofSlot_toSlot] at hf
  subst hf
  obtain hundefined | hdst | hsrc | ⟨hwide, hlast⟩ | ⟨hwide, next, hnext, hlow⟩ | ⟨j, hprefix, hrefused⟩ := hcause
  · exact hundefined (Instr.opcode_mem_opcodes i)
  · exact absurd i.fields_regs_le.1 (by omega)
  · exact absurd i.fields_regs_le.2 (by omega)
  · obtain ⟨n, hn⟩ := Instr.exists_nextImm_of_wide hwide
    obtain ⟨hlt, -⟩ := List.getElem?_eq_some_iff.mp (d.next n hn)
    omega
  · obtain ⟨n, hn⟩ := Instr.exists_nextImm_of_wide hwide
    obtain rfl := Option.some.inj (hnext.symm.trans (d.next n hn))
    rw [Fields.ofSlot_toSlot] at hlow
    exact hlow (secondFields_word_low n)
  · obtain ⟨hjfirst, hjnext⟩ := encode_prefix_drop_iff.mp hprefix
    rw [decodeAt_of_slot hjfirst hstart, decode_of_encoded hjnext] at hi
    cases hcheck : platformCheck s.params j with
    | error e =>
      rw [hcheck] at hi
      cases hi
    | ok k =>
      rw [hcheck] at hi
      cases hi
      obtain ⟨rfl, hgroup, hr10⟩ := platformCheck_eq_ok.mp hcheck
      obtain hunsupported | ⟨hreadOnly, hwrites⟩ := hrefused
      · exact hunsupported (List.contains_iff_mem.mp hgroup)
      · exact hr10 hreadOnly hwrites

/-! ### Fetches and stopped machines -/

/-- Settles O8. -/
theorem fetchFaults : Obligations.FetchFaults := by
  refine fun s hrun => ⟨fun hout => ?outside, fun hin hsecond => ?second⟩
  case outside =>
    refine step_of_decodeAt_error hrun ?_
    simp only [decodeAt, List.getElem?_eq_none hout]
  case second =>
    refine step_of_decodeAt_error hrun ?_
    simp only [decodeAt, List.getElem?_eq_getElem hin, hsecond, if_true]

/-- Settles O9. -/
theorem stoppedMachineTakesNoStep : Obligations.StoppedMachineTakesNoStep :=
  ⟨fun s v h => by simp only [step, h], fun s r h => by simp only [step, h]⟩

/-- Settles O4: the decoder computes each of the fourteen answers. -/
theorem sampleWordsDecode : Obligations.SampleWordsDecode :=
  ⟨rfl, rfl, rfl, rfl, rfl, rfl, rfl, rfl, rfl, rfl, rfl, rfl, rfl, rfl⟩

end Sys2Proof.Machine
end

section
/-!
SUPPORT. What steps keep: which fields each effect of an instruction leaves as they were, where faults and ends of runs come
from, where memory changes, and the invariant of a run with other agents in it (10_state.md, 20_memory.md, 60_exceptions.md,
70_reset_and_hazards.md).
-/

namespace Sys2Proof.Machine

variable {i : Instr} {s t : State}

/-! ### Faults and ends of runs -/

/-- An instruction either leaves the status as it was, or changes nothing else (rules R450, R494). -/
theorem Effect.status_cases (h : Effect i s t) : t.status = s.status ∨ ∃ st, t = { s with status := st } := by
  cases h with
  | unwritten | raised | halted => exact .inr ⟨_, rfl⟩
  | helped _ _ _ _ _ _ hrun => obtain rfl | rfl := hrun.state <;> exact .inl rfl
  | _ => exact .inl rfl

/-- A fault is a read of an unwritten register, or the instruction is not arithmetic. -/
theorem Effect.fault_cases {r : FaultReason} (h : Effect i s t) (hs : s.status = .running) (ht : t.status = .faulted r) :
    (∃ q, r = .uninitRegister q ∧ q ∈ i.reads ∧ s.reg q = none) ∨ isArithmetic i = false := by
  cases h with
  | unwritten q hq hnone => cases ht; exact .inl ⟨q, rfl, hq, hnone⟩
  | raised _ ha => exact .inr ha
  | halted => cases ht
  | helped _ _ _ _ _ _ hrun => obtain rfl | rfl := hrun.state <;> cases hs.symm.trans ht
  | _ => cases hs.symm.trans ht

/-- The run ends by the outermost `EXIT`, or by a packet load outside the packet (rules R494, R432). -/
theorem Effect.halt_cases {v : Word} (h : Effect i s t) (hs : s.status = .running) (ht : t.status = .halted v) :
    t = { s with status := .halted v } ∧
      ((i = .jmpExit ∧ s.frames = [] ∧ s.reg .r0 = some v) ∨
        (v = 0 ∧ ∃ (pkt : List Byte) (n : Nat) (k : Int), s.params.packet = .linux pkt ∧ PacketAccess s i n k ∧
          (k < 0 ∨ (pkt.length : Int) < k + n))) := by
  cases h with
  | halted _ hcause => cases ht; exact ⟨rfl, hcause⟩
  | unwritten | raised => cases ht
  | helped _ _ _ _ _ _ hrun => obtain rfl | rfl := hrun.state <;> cases hs.symm.trans ht
  | _ => cases hs.symm.trans ht

/-- Settles O10: what an instruction can do is a next state, and a step of a running machine raises or executes. -/
theorem everyInstructionAnswersNext : Obligations.EveryInstructionAnswersNext := by
  have hexec (i : Instr) (s : State) : ∃ t, exec i s = .next t := (exec_effect i s).imp fun _ => And.left
  refine ⟨hexec, fun s hrun => ?_⟩
  simp only [step, hrun]
  split
  · exact ⟨_, rfl⟩
  · exact hexec _ s

/-- Settles O11. -/
theorem faultsArePrecise : Obligations.FaultsArePrecise := by
  intro s t r hstep ht
  obtain ⟨hrun, ⟨_, -, rfl⟩ | ⟨i, -, -, heffect⟩⟩ := step_cases hstep
  · cases ht; rfl
  · obtain hstatus | ⟨st, rfl⟩ := heffect.status_cases
    · rw [hstatus, hrun] at ht
      cases ht
    · cases ht; rfl

/-- The offset of an `IND` load is a sum of integers, wrapped to 32 bits and signed (rule R432). -/
theorem low32_add_toInt (v : Word) (imm : Word32) : (low32 v + imm).toInt = (v.toInt + imm.toInt).bmod (2 ^ 32) := by
  have hlow : low32 v = BitVec.ofInt 32 v.toInt := BitVec.eq_of_toInt_eq <| by
    rw [low32, BitVec.toInt_setWidth, BitVec.toInt_ofInt, BitVec.toInt_eq_toNat_bmod, Int.bmod_bmod_of_dvd (by decide)]
  rw [hlow, BitVec.toInt_add, BitVec.toInt_ofInt, Int.bmod_add_bmod]

/-- Settles O12. -/
theorem haltsOnlyByExitOrPacketLoad : Obligations.HaltsOnlyByExitOrPacketLoad := by
  intro s t v hstep ht
  obtain ⟨hrun, ⟨_, -, rfl⟩ | ⟨i, hdecode, -, heffect⟩⟩ := step_cases hstep
  · cases ht
  · obtain ⟨htarget, hexit | ⟨rfl, pkt, n, k, hpacket, haccess, houtside⟩⟩ := heffect.halt_cases hrun ht
    · exact ⟨htarget, i, hdecode, .inl hexit⟩
    · refine ⟨htarget, i, hdecode, .inr ⟨rfl, pkt, ?_⟩⟩
      cases haccess with
      | absW imm | absH imm | absB imm => exact ⟨imm, _, _, hpacket, .inl (by simp), houtside⟩
      | indW src imm x hx | indH src imm x hx | indB src imm x hx =>
        exact ⟨imm, _, _, hpacket, .inr ⟨src, x, hx, by rw [low32_add_toInt]; simp⟩, houtside⟩

/-- Settles O13. -/
theorem arithmeticFaultsOnlyOnUnwrittenRegisters : Obligations.ArithmeticFaultsOnlyOnUnwrittenRegisters := by
  intro i s t r hclass hrun hexec ht
  obtain hread | hnot := (effect_of_exec hexec).fault_cases hrun ht
  · exact hread
  · obtain h | h := hclass <;> simp [isArithmetic, h] at hnot

/-! ### The program, the parameters, the frames and the registers -/

theorem Effect.program_eq (h : Effect i s t) : t.program = s.program := by
  cases h with
  | helped _ _ _ _ _ _ hrun => obtain rfl | rfl := hrun.state <;> rfl
  | _ => rfl

theorem Effect.params_eq (h : Effect i s t) : t.params = s.params := by
  cases h with
  | helped _ _ _ _ _ _ hrun => obtain rfl | rfl := hrun.state <;> rfl
  | _ => rfl

/-- Only a program-local call and the `EXIT` that returns from one change the frames (rules R276, R278). -/
theorem Effect.frames_cases (h : Effect i s t) : t.frames = s.frames ∨
    (∃ imm n, i = .jmpCallLocal imm ∧ s.depth < s.params.maxCallDepth ∧ t = s.enter n) ∨
    ∃ f rest, i = .jmpExit ∧ s.frames = f :: rest ∧ t = s.leave f rest := by
  cases h with
  | helped _ _ _ _ _ _ hrun => obtain rfl | rfl := hrun.state <;> exact .inl rfl
  | entered imm n hi hd => exact .inr (.inl ⟨imm, n, hi, hd, rfl⟩)
  | left f rest hi hf => exact .inr (.inr ⟨f, rest, hi, hf, rfl⟩)
  | _ => exact .inl rfl

theorem Effect.frames_eq (h : Effect i s t) (hlocal : ∀ imm, i ≠ .jmpCallLocal imm) (hexit : i ≠ .jmpExit) :
    t.frames = s.frames := by
  obtain hframes | ⟨imm, -, hi, -⟩ | ⟨-, -, hi, -⟩ := h.frames_cases
  · exact hframes
  · exact absurd hi (hlocal imm)
  · exact absurd hi hexit

/-- Helper calls and packet loads write R0 and drop the scratch registers. -/
theorem get_set_r0_dropScratch (x : Regs) (v : Option Word) {q : Reg}
    (hq : q ∉ [Reg.r0, .r1, .r2, .r3, .r4, .r5]) : (x.set .r0 v).dropScratch.get q = x.get q := by
  simp only [List.mem_cons, List.not_mem_nil, or_false, not_or] at hq
  simp [Regs.get_dropScratch, hq]

/-- An instruction that keeps the frames changes only the register it names as written, R0 for `CMPXCHG`, and R0 to R5
for helper calls and packet loads (rules R273, R377, R432). -/
theorem Effect.reg_eq {q : Reg} (h : Effect i s t) (hframes : t.frames = s.frames) (hwritten : i.writtenReg ≠ some q)
    (hcompare : comparesWithR0 i → q ≠ .r0)
    (hscratch : (∃ id, i = .jmpCallHelper id ∨ i = .jmpCallBtf id) ∨ i.group = .packet →
      q ∉ [Reg.r0, .r1, .r2, .r3, .r4, .r5]) : t.reg q = s.reg q := by
  have hne {r : Reg} (hr : i.writtenReg = some r) : q ≠ r := fun e => hwritten (e ▸ hr)
  cases h with
  | wrote _ _ hr | wroteDrawn _ _ hr => simp [hne hr]
  | exchanged _ _ _ _ _ _ hd =>
    have hq := hd.elim hne fun ⟨hr, hc⟩ => hr ▸ hcompare hc
    simp [hq]
  | compared _ _ hc => simp [hcompare hc]
  | helped table id hi _ r0 _ hrun =>
    have hq := get_set_r0_dropScratch s.regs (some r0) (hscratch (.inl ⟨id, hi.imp And.left And.left⟩))
    obtain rfl | rfl := hrun.state <;> exact hq
  | loadedPacket v hg => exact get_set_r0_dropScratch s.regs (some v) (hscratch (.inr hg))
  | entered => simp at hframes
  | left _ _ _ hf => simp [hf] at hframes
  | _ => rfl

/-- R10 is no scratch register, and `CMPXCHG` writes R0. -/
theorem Effect.r10_eq (h : Effect i s t) (hframes : t.frames = s.frames) (hwritten : i.writtenReg ≠ some .r10) :
    t.reg .r10 = s.reg .r10 :=
  h.reg_eq hframes hwritten (fun _ => by decide) fun _ => by decide

/-- Settles O50. -/
theorem programAndParametersNeverChange : Obligations.ProgramAndParametersNeverChange :=
  fun _ _ _ h => ⟨(effect_of_exec h).program_eq, (effect_of_exec h).params_eq⟩

/-- Settles O51: what decodes at the program counter writes no read-only R10 (rule R35). -/
theorem onlyCallAndExitChangeFramesAndR10 : Obligations.OnlyCallAndExitChangeFramesAndR10 := by
  intro s t hstep hlocal hexit
  obtain ⟨-, ⟨_, -, rfl⟩ | ⟨i, hdecode, hat, heffect⟩⟩ := step_cases hstep
  · exact ⟨rfl, fun _ => rfl⟩
  · have hframes := heffect.frames_eq (fun imm h => hlocal imm (h ▸ hdecode)) fun h => hexit (h ▸ hdecode)
    exact ⟨hframes, fun hreadOnly => heffect.r10_eq hframes (hat.keepsR10 hreadOnly)⟩

/-- Settles O52: 'opcode' 0x85 is that of every call. -/
theorem registersWrittenAreTheDestination : Obligations.RegistersWrittenAreTheDestination := by
  intro i s t q hexec hopcode hexit hpacket hwritten hcompare
  have heffect := effect_of_exec hexec
  have hframes := heffect.frames_eq (fun imm h => hopcode (h ▸ rfl)) hexit
  refine heffect.reg_eq hframes hwritten hcompare fun h => ?_
  obtain ⟨id, h | h⟩ | h := h
  · exact absurd (h ▸ rfl) hopcode
  · exact absurd (h ▸ rfl) hopcode
  · exact absurd h hpacket

/-! ### Memory -/

/-- A byte that an `n`-byte store changes is one of the `n` bytes. -/
theorem State.store_changes {addr : Word} {n a : Nat} {v : Word} (h : (s.store addr n v).mem.read a ≠ s.mem.read a) :
    addr.toNat ≤ a ∧ a < addr.toNat + n := by
  by_contra houtside
  refine h (Memory.read_writeBytes_outside _ _ _ _ ?_)
  rw [layOut_length]
  omega

/-- A byte that clearing a range changes is in the range, and holds no value afterwards. -/
theorem Memory.clearRange_changes {m : Memory} {lo hi a : Nat} (h : (m.clearRange lo hi).read a ≠ m.read a) :
    lo ≤ a ∧ a < hi ∧ (m.clearRange lo hi).read a = none := by
  rw [Memory.read_clearRange] at h ⊢
  split at h
  · next hin => exact ⟨hin.1, hin.2, if_pos hin⟩
  · exact absurd rfl h

/-- A helper changes the bytes it writes. -/
theorem applyWrites_changes {m : Memory} {writes : List (Word × Option Byte)} {a : Nat}
    (h : (applyWrites m writes).read a ≠ m.read a) : ∃ w ∈ writes, w.1.toNat = a := by
  by_contra! hnone
  exact h (read_applyWrites_outside m writes a hnone)

/-- Where an instruction changes memory (rules R63, R273, R68). -/
theorem Effect.memory_cases {a : Nat} (h : Effect i s t) (hne : t.mem.read a ≠ s.mem.read a) :
    (∃ addr n, Storing i s addr n ∧ addr.toNat ≤ a ∧ a < addr.toNat + n) ∨
    (∃ table id u r0 writes, ((i = .jmpCallHelper id ∧ table = .static) ∨ (i = .jmpCallBtf id ∧ table = .btf)) ∧
      HelperRun s table id r0 writes u ∧ ∃ w ∈ writes, w.1.toNat = a) ∨
    (∃ imm, i = .jmpCallLocal imm ∧ s.params.frameBase (s.depth + 1) ≤ a ∧ a < s.params.frameTop (s.depth + 1) ∧
      t.mem.read a = none) ∨
    (i = .jmpExit ∧ s.frames ≠ [] ∧ s.params.frameBase s.depth ≤ a ∧ a < s.params.frameTop s.depth ∧
      t.mem.read a = none) := by
  cases h with
  | stored addr n v hs | exchanged addr n v _ _ hs =>
    exact .inl ⟨addr, n, hs, State.store_changes (v := v) hne⟩
  | helped table id hi u r0 writes hrun =>
    exact .inr (.inl ⟨table, id, u, r0, writes, hi, hrun, applyWrites_changes hne⟩)
  | entered imm _ hi => exact .inr (.inr (.inl ⟨imm, hi, Memory.clearRange_changes hne⟩))
  | left f rest hi hf => exact .inr (.inr (.inr ⟨hi, by simp [hf], Memory.clearRange_changes hne⟩))
  | _ => exact absurd rfl hne

/-- Settles O47: the four ways in which an effect changes memory, and what `Storing` and `HelperRun` say of the first two. -/
theorem memoryChangesOnlyWhereAdmitted : Obligations.MemoryChangesOnlyWhereAdmitted := by
  intro s t a hstep hne
  obtain ⟨-, ⟨_, -, rfl⟩ | ⟨i, hdecode, -, heffect⟩⟩ := step_cases hstep
  · exact absurd rfl hne
  refine ⟨i, hdecode, ?_⟩
  obtain ⟨addr, n, hs, hin⟩ | ⟨table, id, u, r0, writes, hi, hrun, hw⟩ | hcall | hexit := heffect.memory_cases hne
  · refine .inl ⟨?_, ?_⟩
    · have hclass := hs.storing
      simp only [isStoring, Bool.or_eq_true, beq_iff_eq] at hclass
      exact hclass.imp eq_of_toNat eq_of_toNat
    · obtain ⟨r, base, hr, hbase, rfl, hadmit⟩ := hs.admitted
      exact ⟨r, base, n, storeKind i, hr, hbase, hs.size, rfl, hadmit, hin⟩
  · obtain ⟨helper, args, hlookup, hargs, hreturns, -⟩ := hrun.ran
    exact .inr (.inl ⟨table, id, helper, args, r0, writes, by simpa using hi, hlookup, hargs, hreturns, hw⟩)
  · exact .inr (.inr (.inl hcall))
  · exact .inr (.inr (.inr hexit))

/-! ### Dead stack frames (rules R66 to R68) -/

/-- An access touches what its bytes touch. -/
theorem touchesDeadFrame_of_byte {p : Params} {d a addr n : Nat} (h : p.touchesDeadFrame d a 1 = true)
    (hlo : addr ≤ a) (hhi : a < addr + n) : p.touchesDeadFrame d addr n = true := by
  obtain ⟨e, hd, hmax, htouch⟩ := Params.touchesDeadFrame_iff.mp h
  rw [Params.touchesFrame_byte] at htouch
  exact Params.touchesDeadFrame_iff.mpr ⟨e, hd, hmax, Params.touchesFrame_iff.mpr (by omega)⟩

/-- A frame that is dead at a depth is dead at every smaller one. -/
theorem touchesDeadFrame_of_le {p : Params} {d d' a n : Nat} (h : p.touchesDeadFrame d' a n = true) (hle : d ≤ d') :
    p.touchesDeadFrame d a n = true := by
  obtain ⟨e, hd, hrest⟩ := Params.touchesDeadFrame_iff.mp h
  exact Params.touchesDeadFrame_iff.mpr ⟨e, by omega, hrest⟩

/-- A frame that is dead one depth below is the frame of this depth, or dead here too. -/
theorem touchesDeadFrame_succ {p : Params} {d a : Nat} (h : p.touchesDeadFrame d a 1 = true) :
    (p.frameBase (d + 1) ≤ a ∧ a < p.frameTop (d + 1)) ∨ p.touchesDeadFrame (d + 1) a 1 = true := by
  obtain ⟨e, hd, hmax, htouch⟩ := Params.touchesDeadFrame_iff.mp h
  obtain rfl | hlt := Nat.eq_or_lt_of_le (Nat.succ_le_of_lt hd)
  · exact .inl (Params.touchesFrame_byte.mp htouch)
  · exact .inr (Params.touchesDeadFrame_iff.mpr ⟨e, hlt, hmax, htouch⟩)

/-- A store that `Admit` lets through changes no byte of a dead frame. -/
theorem Storing.keeps_dead {addr : Word} {n a : Nat} (v : Word) (h : Storing i s addr n)
    (hdead : s.params.touchesDeadFrame s.depth a 1 = true) : (s.store addr n v).mem.read a = s.mem.read a := by
  by_contra hne
  obtain ⟨hlo, hhi⟩ := State.store_changes hne
  obtain ⟨_, _, _, _, _, hadmit⟩ := h.admitted
  obtain ⟨-, -, huntouched, -, -⟩ := Params.admits_parts hadmit
  exact absurd (touchesDeadFrame_of_byte hdead hlo hhi) (by simp [huntouched])

/-! ### The invariant, field by field -/

theorem Storing.wf {addr : Word} {n : Nat} (v : Word) (h : Storing i s addr n) (hwf : Memory.wf s.mem) :
    Memory.wf (s.store addr n v).mem := by
  obtain ⟨_, _, _, _, _, hadmit⟩ := h.admitted
  exact Memory.wf_writeBytes _ _ _ hwf (by simpa using (Params.admits_parts hadmit).1)

theorem Effect.keeps_wf (h : Effect i s t) (hwf : Memory.wf s.mem) : Memory.wf t.mem := by
  cases h with
  | stored _ _ v hs | exchanged _ _ v _ _ hs => exact hs.wf v hwf
  | helped => exact wf_applyWrites _ _ hwf
  | entered | left => exact Memory.wf_clearRange _ _ _ hwf
  | _ => exact hwf

/-- A call is made below the greatest depth only; `EXIT` pops a frame. -/
theorem Effect.keeps_depthBound (h : Effect i s t) (hd : s.depth ≤ s.params.maxCallDepth) :
    t.depth ≤ t.params.maxCallDepth := by
  obtain hframes | ⟨_, _, -, hlt, rfl⟩ | ⟨f, rest, -, hf, rfl⟩ := h.frames_cases
  · rwa [State.depth, hframes, h.params_eq]
  · exact hlt
  · simp only [State.depth, hf, List.length_cons] at hd
    exact Nat.le_of_succ_le hd

/-- A frame becomes dead when its function returns, which clears it; a frame that stays dead is not written to. -/
theorem Effect.keeps_deadFrames (h : Effect i s t) (hhelpers : s.params.helpers = []) (hbtf : s.params.btfHelpers = [])
    (hdead : ∀ a, s.params.touchesDeadFrame s.depth a 1 = true → s.mem.read a = none) :
    ∀ a, t.params.touchesDeadFrame t.depth a 1 = true → t.mem.read a = none := by
  intro a ha
  cases h with
  | stored _ _ v hs | exchanged _ _ v _ _ hs => exact (hs.keeps_dead v ha).trans (hdead a ha)
  | helped table id _ _ _ _ hrun =>
    obtain ⟨_, _, hlookup, -⟩ := hrun.ran
    cases table <;> simp [Params.helperTable, hhelpers, hbtf, lookupTable] at hlookup
  | entered =>
    rw [State.enter_mem, Memory.read_clearRange, hdead a (touchesDeadFrame_of_le ha (Nat.le_succ _)), ite_self]
  | left f rest _ hf =>
    have hdepth : s.depth = rest.length + 1 := by rw [State.depth, hf, List.length_cons]
    rw [State.leave_mem, Memory.read_clearRange, hdepth]
    rw [hdepth] at hdead
    obtain hframe | hstill := touchesDeadFrame_succ ha
    · exact if_pos hframe
    · rw [hdead a hstill, ite_self]
  | _ => exact hdead a ha

/-- A call gives its callee the frame pointer of the new depth and saves the caller's; `EXIT` restores it; nothing else
writes R10 while it is read-only (rules R35, R276 to R278). -/
theorem Effect.keeps_framePointer (h : Effect i s t) (hwritten : i.writtenReg ≠ some .r10)
    (hfp : s.reg .r10 = some (s.params.framePointer s.depth) ∧ savedFramePointers s.params s.frames) :
    t.reg .r10 = some (t.params.framePointer t.depth) ∧ savedFramePointers t.params t.frames := by
  obtain ⟨hr10, hsaved⟩ := hfp
  obtain hframes | ⟨_, _, -, -, rfl⟩ | ⟨f, rest, -, hf, rfl⟩ := h.frames_cases
  · rw [h.r10_eq hframes hwritten, State.depth, hframes, h.params_eq]
    exact ⟨hr10, hsaved⟩
  · exact ⟨rfl, hr10, hsaved⟩
  · rw [hf] at hsaved
    exact hsaved

/-- The next slot starts an instruction, and so does every target that was checked and every return slot that was saved
(rules R39, R262, R278). -/
theorem Effect.keeps_startsInstruction (h : Effect i s t) (hat : DecodedAt s s.pc i)
    (hstart : isSecondSlot s.program s.pc = false ∧ ∀ f ∈ s.frames, isSecondSlot s.program f.ret = false) :
    isSecondSlot t.program t.pc = false ∧ ∀ f ∈ t.frames, isSecondSlot t.program f.ret = false := by
  obtain ⟨-, hreturns⟩ := id hstart
  have hlength := hat.not_second_after
  have hnext (h1 : i.length = 1) : isSecondSlot s.program (s.pc + 1) = false := h1 ▸ hlength
  cases h with
  | unwritten | raised | halted => exact hstart
  | wrote => exact ⟨hlength, hreturns⟩
  | wroteDrawn _ _ _ h1 | wentOn h1 | compared _ h1 | loadedPacket _ _ h1 => exact ⟨hnext h1, hreturns⟩
  | stored _ _ _ hs | exchanged _ _ _ _ _ hs => exact ⟨hnext hs.one, hreturns⟩
  | jumped _ _ h2 => exact ⟨h2, hreturns⟩
  | helped _ _ hi _ _ _ hrun =>
    have h1 : i.length = 1 := by obtain ⟨rfl, -⟩ | ⟨rfl, -⟩ := hi <;> rfl
    obtain rfl | rfl := hrun.state <;> exact ⟨hnext h1, hreturns⟩
  | entered _ _ hi _ _ h2 => exact ⟨h2, List.forall_mem_cons.mpr ⟨hnext (hi ▸ rfl), hreturns⟩⟩
  | left _ _ _ hf => rwa [hf, List.forall_mem_cons] at hreturns

/-- The status has no part in the invariant. -/
theorem State.Inv.withStatus (h : s.Inv) (st : Status) : State.Inv { s with status := st } :=
  ⟨h.memory, h.depthBound, h.deadFrames, h.framePointer, h.startsInstruction⟩

/-- What an instruction that decodes at the program counter does keeps the invariant. -/
theorem Effect.keeps_inv (h : Effect i s t) (hat : DecodedAt s s.pc i) (hinv : s.Inv) : t.Inv where
  memory := h.keeps_wf hinv.memory
  depthBound := h.keeps_depthBound hinv.depthBound
  deadFrames hhelpers hbtf :=
    have hparams := h.params_eq
    h.keeps_deadFrames (hparams ▸ hhelpers) (hparams ▸ hbtf) (hinv.deadFrames (hparams ▸ hhelpers) (hparams ▸ hbtf))
  framePointer hreadOnly :=
    have hreadOnly' := h.params_eq ▸ hreadOnly
    h.keeps_framePointer (hat.keepsR10 hreadOnly') (hinv.framePointer hreadOnly')
  startsInstruction := h.keeps_startsInstruction hat hinv.startsInstruction

/-- Settles O53. -/
theorem stepKeepsTheInvariant : Obligations.StepKeepsTheInvariant := by
  intro s t hinv hstep
  obtain ⟨-, ⟨_, -, rfl⟩ | ⟨i, -, hat, heffect⟩⟩ := step_cases hstep
  · exact hinv.withStatus _
  · exact heffect.keeps_inv hat hinv

/-! ### Other agents (rules R80, R81) -/

/-- What holds of memory and is kept by every change to a shared byte outside the stack holds after the other agents'
changes. -/
theorem envStep_mem_induction {P : Memory → Prop} (changes : List (Word × Byte)) (hs : P s.mem)
    (hwrite : ∀ (m : Memory) (a : Word) (b : Byte), s.params.sharedByte a.toNat = true →
      s.params.stackByte a.toNat = false → P m → P (m.write a.toNat b)) : P (s.envStep changes).mem := by
  refine List.foldlRecOn changes _ hs fun m hm c _ => ?_
  split
  · next hallowed =>
    simp only [Bool.and_eq_true, Bool.not_eq_true'] at hallowed
    exact hwrite m c.1 c.2 hallowed.1 hallowed.2 hm
  · exact hm

/-- Other agents change neither a byte that is not shared nor one of the stack. -/
theorem read_envStep {a : Nat} (changes : List (Word × Byte))
    (ha : s.params.sharedByte a = false ∨ s.params.stackByte a = true) :
    (s.envStep changes).mem.read a = s.mem.read a := by
  refine envStep_mem_induction (P := fun m => m.read a = s.mem.read a) changes rfl fun m x b hshared hstack hm => ?_
  have hne : a ≠ x.toNat := fun e => by simp_all
  rw [Memory.read_write, if_neg hne, hm]

theorem State.Inv.envStep (h : s.Inv) (changes : List (Word × Byte)) : (s.envStep changes).Inv where
  memory := envStep_mem_induction changes h.memory fun m x b _ _ hm => Memory.wf_write m _ b hm x.isLt
  depthBound := h.depthBound
  deadFrames hhelpers hbtf a ha :=
    (read_envStep (s := s) changes (.inr (Params.stackByte_of_dead ha))).trans (h.deadFrames hhelpers hbtf a ha)
  framePointer := h.framePointer
  startsInstruction := h.startsInstruction

/-- Settles O56. -/
theorem otherAgentsChangeOnlySharedBytes : Obligations.OtherAgentsChangeOnlySharedBytes :=
  fun _ changes => ⟨rfl, fun _ ha => read_envStep changes ha, fun hinv => hinv.envStep changes⟩

/-- A run keeps the invariant: its steps do, and so do the changes of other agents between them. -/
theorem State.Reaches.keeps_inv (h : s.Reaches t) (hinv : s.Inv) : t.Inv := by
  induction h with
  | refl => exact hinv
  | stepped _ _ _ hstep ih => exact stepKeepsTheInvariant _ _ ih hstep
  | environment _ changes _ _ ih => exact ih.envStep changes

/-! ### The start of a run (rules R490 to R493) -/

/-- Slot 0 starts an instruction. -/
theorem isSecondSlot_zero (program : List Slot) : isSecondSlot program 0 = false := by
  cases program <;> rfl

/-- An entry state has the invariant when its memory is canonical and holds nothing in a stack frame. -/
theorem State.entry_inv {p : Params} (program : List Slot) {m : Memory} (hwf : Memory.wf m)
    (hstack : ∀ a, p.stackByte a = true → m.read a = none) : (State.entry p program m).Inv where
  memory := hwf
  depthBound := Nat.zero_le _
  deadFrames _ _ a ha := hstack a (Params.stackByte_of_dead ha)
  framePointer _ := ⟨rfl, trivial⟩
  startsInstruction := ⟨isSecondSlot_zero program, nofun⟩

/-- What holds of empty memory and is kept by placing a byte outside the stack holds of the launch memory. -/
theorem launchMemory_induction {p : Params} {P : Memory → Prop} (contents : List (Word × Byte)) (hnil : P [])
    (hwrite : ∀ m, ∀ c ∈ contents, p.stackByte c.1.toNat = false → P m → P (m.write c.1.toNat c.2)) :
    P (launchMemory p contents) := by
  refine List.foldlRecOn contents _ hnil fun m hm c hc => ?_
  split
  · exact hm
  · next hstack => exact hwrite m c hc (by simpa using hstack) hm

theorem launchMemory_wf (p : Params) (contents : List (Word × Byte)) : Memory.wf (launchMemory p contents) :=
  launchMemory_induction contents Memory.wf_nil fun m c _ _ hm => Memory.wf_write m _ c.2 hm c.1.isLt

/-- A byte at which nothing is placed outside the stack holds no value at launch. -/
theorem read_launchMemory_none {p : Params} {a : Nat} (contents : List (Word × Byte))
    (ha : ∀ c ∈ contents, p.stackByte c.1.toNat = false → c.1.toNat ≠ a) : (launchMemory p contents).read a = none := by
  refine launchMemory_induction (P := fun m => m.read a = none) contents rfl fun m c hc hstack hm => ?_
  rw [Memory.read_write, if_neg (ha c hc hstack).symm, hm]

theorem read_launchMemory_stack {p : Params} {a : Nat} (contents : List (Word × Byte)) (ha : p.stackByte a = true) :
    (launchMemory p contents).read a = none :=
  read_launchMemory_none contents fun c _ hstack e => by simp_all

/-- A byte outside the stack holds at launch what was placed there last. -/
theorem read_launchMemory_last {p : Params} (l r : List (Word × Byte)) {c : Word × Byte}
    (hlast : ∀ x ∈ r, x.1 ≠ c.1) (hstack : p.stackByte c.1.toNat = false) :
    (launchMemory p (l ++ c :: r)).read c.1.toNat = some c.2 := by
  simp only [launchMemory, List.foldl_append, List.foldl_cons, hstack, Bool.false_eq_true, if_false]
  refine List.foldlRecOn (motive := fun m => Memory.read m c.1.toNat = some c.2) r _ (by simp) fun m hm x hx => ?_
  split
  · exact hm
  · have hne : c.1.toNat ≠ x.1.toNat := fun e => hlast x hx (BitVec.eq_of_toNat_eq e.symm)
    rw [Memory.read_write, if_neg hne, hm]

/-- What `launch` answers when it refuses nothing. -/
theorem launch_of_good {p : Params} {program : List Slot} (contents : List (Word × Byte)) (hgroups : groupsClosed p = true)
    (hfits : fitsMaxSlots p program = true) (hlayout : stackLayoutOk p = true) :
    launch p program contents = .next (State.entry p program (launchMemory p contents)) := by
  simp only [launch, hgroups, hfits, hlayout, if_true]

/-- The only next state that `launch` answers is the entry state. -/
theorem launch_eq_next {p : Params} {program : List Slot} {contents : List (Word × Byte)}
    (h : launch p program contents = .next s) : s = State.entry p program (launchMemory p contents) := by
  unfold launch at h
  repeat' split at h
  all_goals cases h
  rfl

/-- Settles O55. -/
theorem launchedRunsKeepTheInvariant : Obligations.LaunchedRunsKeepTheInvariant := by
  intro p program contents s t hlaunch hreach
  obtain rfl := launch_eq_next hlaunch
  exact hreach.keeps_inv
    (State.entry_inv program (launchMemory_wf p contents) fun _ => read_launchMemory_stack contents)

/-- Settles O57. -/
theorem launchGivesTheEntryState : Obligations.LaunchGivesTheEntryState :=
  fun _ _ contents hgroups hfits hlayout =>
    ⟨_, launch_of_good contents hgroups hfits hlayout, rfl, rfl, rfl, rfl, rfl, rfl,
      fun _ => read_launchMemory_stack contents,
      fun l r _ hcontents hlast hstack => hcontents ▸ read_launchMemory_last l r hlast hstack,
      fun _ ha => read_launchMemory_none contents fun c hc _ => ha c hc⟩

/-- The inclusion of `base64` in `base32` asks for nothing more, as `base32` is always there (rule R2). -/
theorem groupsClosed_iff {p : Params} : groupsClosed p = true ↔ .base32 ∈ p.groups ∧
    (.atomic64 ∈ p.groups → .atomic32 ∈ p.groups) ∧ (.divmul64 ∈ p.groups → .divmul32 ∈ p.groups) := by
  have himp (b c : Bool) : (!b || c) = true ↔ (b = true → c = true) := by cases b <;> simp
  simp only [groupsClosed, Params.supports, Bool.and_eq_true, himp, List.contains_iff_mem]
  tauto

/-- Settles O58. -/
theorem launchRefusals : Obligations.LaunchRefusals := by
  refine fun p program contents => ⟨fun hopen => ?groups, fun hgroups => ⟨fun n hmax hlong => ?length, fun hfits hbad => ?layout⟩⟩
  case groups =>
    have hnot : ¬groupsClosed p = true := by
      rw [groupsClosed_iff]
      tauto
    simp [launch, hnot]
  case length =>
    have hnot : fitsMaxSlots p program = false := by simp [fitsMaxSlots, hmax, hlong]
    simp [launch, hgroups, hnot]
  case layout => simp [launch, hgroups, hfits, hbad]

/-- Settles O59. -/
theorem resetState : Obligations.ResetState := by
  refine ⟨rfl, rfl, rfl, rfl, rfl, rfl, fun r hr => ?_, rfl⟩
  cases r with
  | r10 => exact absurd rfl hr
  | _ => rfl

/-- Settles O54: the values of R0 to R9, in which reset differs from an entry state, have no part in the invariant. -/
theorem resetHasTheInvariant : Obligations.ResetHasTheInvariant :=
  have h := State.entry_inv (p := Params.reset) [] Memory.wf_nil fun _ _ => rfl
  ⟨h.memory, h.depthBound, h.deadFrames, h.framePointer, h.startsInstruction⟩

/-! ### `Admit` (rules R64, R66, R67, R371, R421) -/

theorem Params.aligned_iff {p : Params} {a n : Nat} {kind : AccessKind} :
    p.aligned a n kind = true ↔ ((kind = .atomic ∨ p.alignPolicy = .natural) → a % n = 0) := by
  unfold Params.aligned
  split <;> simp_all

/-- Settles O45. -/
theorem admitConstraints : Obligations.AdmitConstraints := by
  intro p d addr n kind hn hadmit
  obtain ⟨hwrap, haligned, hdead, hcode, -⟩ := Params.admits_parts hadmit
  refine ⟨hwrap, Params.aligned_iff.mp haligned, fun e a hd hmax hlo hhi hin => ?_, Params.touchesCode_eq_false.mp hcode,
    fun hatomic => Params.admits_of_atomic (hatomic ▸ hadmit)⟩
  have hbyte : p.touchesDeadFrame d a 1 = true :=
    Params.touchesDeadFrame_iff.mpr ⟨e, hd, hmax, Params.touchesFrame_byte.mpr hin⟩
  exact absurd (touchesDeadFrame_of_byte hbyte hlo hhi) (by simp [hdead])

/-- What a good stack layout says of the frame of a depth: it fits below its R10, no other frame touches it, and no slot
at a code address does (rule R493). -/
theorem stackLayoutOk_frame {p : Params} {d : Nat} (h : stackLayoutOk p = true) (hd : d ≤ p.maxCallDepth) :
    p.stackSize ≤ p.frameTop d ∧
      (∀ e, e ≤ p.maxCallDepth → e ≠ d → p.touchesFrame e (p.frameBase d) p.stackSize = false) ∧
      ∀ c ∈ p.codeAddr, p.touchesFrame d c.2.toNat 8 = false := by
  simp only [stackLayoutOk, Bool.and_eq_true, decide_eq_true_eq, List.all_eq_true, List.mem_range, Bool.or_eq_true,
    beq_iff_eq, Bool.not_eq_true'] at h
  obtain ⟨-, hframes⟩ := h
  obtain ⟨⟨⟨hfits, hothers⟩, -⟩, hcode⟩ := hframes d (by omega)
  exact ⟨hfits, fun e he hne => (hothers e (by omega)).resolve_left hne.symm, hcode⟩

/-- Settles O46: a live frame is disjoint from every dead one and from program text, and lies below 2^64. -/
theorem admitLiveFrames : Obligations.AdmitLiveFrames := by
  intro p d e addr n kind hlayout hed hd hn hlo hhi haligned
  change p.frameBase e ≤ addr.toNat at hlo
  change addr.toNat + n ≤ p.frameTop e at hhi
  obtain ⟨hfits, hothers, hcodes⟩ := stackLayoutOk_frame hlayout (by omega : e ≤ p.maxCallDepth)
  have hbase : p.frameBase e + p.stackSize = p.frameTop e := Nat.sub_add_cancel hfits
  have htop : p.frameTop e < 2 ^ 64 := (p.framePointer e).isLt
  have hdead : p.touchesDeadFrame d addr.toNat n = false := by
    by_contra htouch
    obtain ⟨x, hx, hmax, hframe⟩ := Params.touchesDeadFrame_iff.mp (Bool.eq_true_of_not_eq_false htouch)
    have hdisjoint := hothers x hmax (by omega)
    rw [← Bool.not_eq_true, Params.touchesFrame_iff] at hdisjoint
    rw [Params.touchesFrame_iff] at hframe
    omega
  have hcode : p.touchesCode addr.toNat n = false := Params.touchesCode_eq_false.mpr fun c hc => by
    have hdisjoint := hcodes c hc
    rw [← Bool.not_eq_true, Params.touchesFrame_iff] at hdisjoint
    omega
  have hallows (kind : AccessKind) : p.allows d addr.toNat n kind = true := by
    have hlive : p.insideLiveFrame d addr.toNat n = true :=
      List.any_eq_true.mpr ⟨e, List.mem_range.mpr (by omega), by simp [Params.insideFrame, hlo, hhi]⟩
    simp [Params.allows, hlive]
  have hwrap : addr.toNat + n ≤ 2 ^ 64 := by omega
  simpa [Params.admits, Params.aligned_iff.mpr haligned, hdead, hcode, hallows] using hwrap

end Sys2Proof.Machine
end

section
/-!
SUPPORT. What instructions read: the registers each one reads before it does anything else, and the 32-bit instructions,
which see only the low halves of the registers (rules R32, R33, R261, R452).
-/

namespace Sys2Proof.Machine

/-! ### Reads come first (rule R452) -/

variable {i : Instr} {s u : State} {dst src q : Reg}

/-- The instruction starts with the reads of the registers of `Instr.reads`, in their order. -/
def ReadsFirst (i : Instr) (s : State) : Prop := ∃ k, exec i s = s.withRegs i.reads k

theorem readsFirst_of_none (hr : i.reads = []) : ReadsFirst i s := ⟨fun _ => exec i s, by rw [hr]; rfl⟩

theorem readsFirst_of_one {g : Word → StepResult} (hr : i.reads = [dst]) (he : exec i s = s.withReg dst g) :
    ReadsFirst i s := ⟨fun vs => g (vs.getD 0 0), by rw [he, hr]; rfl⟩

theorem readsFirst_of_two {g : Word → Word → StepResult} (hr : i.reads = [dst, src])
    (he : exec i s = s.withReg dst fun a => s.withReg src (g a)) : ReadsFirst i s :=
  ⟨fun vs => g (vs.getD 0 0) (vs.getD 1 0), by rw [he, hr]; rfl⟩

theorem readsFirst_of_three {g : Word → Word → Word → StepResult} (hr : i.reads = [dst, src, q])
    (he : exec i s = s.withReg dst fun a => s.withReg src fun b => s.withReg q (g a b)) : ReadsFirst i s :=
  ⟨fun vs => g (vs.getD 0 0) (vs.getD 1 0) (vs.getD 2 0), by rw [he, hr]; rfl⟩

theorem packetAbs_of_linux {n : Nat} {imm : Word32} {pkt : List Byte} (h : s.params.packet = .linux pkt) :
    packetAbs n imm s = s.withReg .r6 fun _ => s.packetLoad pkt n imm.toInt := by
  simp only [packetAbs, h]

theorem packetInd_of_linux {n : Nat} {imm : Word32} {pkt : List Byte} (h : s.params.packet = .linux pkt) :
    packetInd n src imm s = s.withReg src fun v => s.withReg .r6 fun _ => s.packetLoad pkt n (low32 v + imm).toInt := by
  simp only [packetInd, h]

/-- Every instruction reads first; a packet load does where the platform supports it, as it asks that before (rule R432). -/
theorem exec_readsFirst (i : Instr) (s : State) (hpacket : i.group = .packet → s.params.packet ≠ .unsupported) :
    ReadsFirst i s := by
  have hlinux (hg : i.group = .packet) : ∃ pkt, s.params.packet = .linux pkt := by
    cases hp : s.params.packet with
    | unsupported => exact absurd hp (hpacket hg)
    | linux pkt => exact ⟨pkt, rfl⟩
  cases i with
  | ldAbsW imm | ldAbsH imm | ldAbsB imm =>
    obtain ⟨pkt, hp⟩ := hlinux rfl
    exact readsFirst_of_one rfl (packetAbs_of_linux hp)
  | ldIndW src imm | ldIndH src imm | ldIndB src imm =>
    obtain ⟨pkt, hp⟩ := hlinux rfl
    exact readsFirst_of_two rfl (packetInd_of_linux hp)
  | stxAtomicWCmpxchg | stxAtomicDwCmpxchg => exact readsFirst_of_three rfl rfl
  | aluMovK | alu64MovK | jmpJa | jmp32Ja | jmpCallHelper | jmpCallLocal | jmpCallBtf | jmpExit | ldImm64
    | ldMapByFd | ldMapValByFd | ldVarAddr | ldCodeAddr | ldMapByIdx | ldMapValByIdx =>
    exact readsFirst_of_none rfl
  | aluAddK | alu64AddK | aluSubK | alu64SubK | aluMulK | alu64MulK | aluDivK | alu64DivK | aluSdivK
    | alu64SdivK | aluOrK | alu64OrK | aluAndK | alu64AndK | aluLshK | alu64LshK | aluRshK | alu64RshK
    | aluNegK | alu64NegK | aluModK | alu64ModK | aluSmodK | alu64SmodK | aluXorK | alu64XorK | aluMovX
    | alu64MovX | aluMovsx8X | aluMovsx16X | alu64Movsx8X | alu64Movsx16X | alu64Movsx32X | aluArshK
    | alu64ArshK | aluEndToLe16 | aluEndToLe32 | aluEndToLe64 | aluEndToBe16 | aluEndToBe32 | aluEndToBe64
    | alu64EndBswap16 | alu64EndBswap32 | alu64EndBswap64 | jmpJeqK | jmp32JeqK | jmpJgtK | jmp32JgtK | jmpJgeK
    | jmp32JgeK | jmpJsetK | jmp32JsetK | jmpJneK | jmp32JneK | jmpJsgtK | jmp32JsgtK | jmpJsgeK | jmp32JsgeK
    | jmpJltK | jmp32JltK | jmpJleK | jmp32JleK | jmpJsltK | jmp32JsltK | jmpJsleK | jmp32JsleK | ldxMemW
    | ldxMemH | ldxMemB | ldxMemDw | ldxMemsxW | ldxMemsxH | ldxMemsxB | stMemW | stMemH | stMemB | stMemDw =>
    exact readsFirst_of_one rfl rfl
  | _ => exact readsFirst_of_two rfl rfl

/-- Settles O14. -/
theorem unwrittenOperandFaults : Obligations.UnwrittenOperandFaults := by
  intro i s l r q hreads hl hq hpacket
  obtain ⟨k, hk⟩ := exec_readsFirst i s hpacket
  rw [hk, hreads]
  exact State.withRegs_of_none s l r q k hl hq

/-! ### Low halves (rules R32, R261) -/

/-- Two states that agree in everything but the upper halves of the registers. -/
structure SameLow (s u : State) : Prop where
  rest : u = { s with regs := u.regs }
  low : ∀ r, (s.reg r).map low32 = (u.reg r).map low32

theorem SameLow.setReg (h : SameLow s u) (r : Reg) (v : Word) : SameLow (s.setReg r v) (u.setReg r v) where
  rest := by rw [h.rest]; rfl
  low q := by
    simp only [State.reg_setReg]
    split
    · rfl
    · exact h.low q

theorem SameLow.advance (h : SameLow s u) (k : Nat) : SameLow (s.advance k) (u.advance k) where
  rest := by rw [h.rest]; rfl
  low := h.low

theorem SameLow.drew (h : SameLow s u) : SameLow s.drew u.drew where
  rest := by rw [h.rest]; rfl
  low := h.low

theorem SameLow.withStatus (h : SameLow s u) (st : Status) :
    SameLow { s with status := st } { u with status := st } where
  rest := by rw [h.rest]
  low := h.low

theorem SameLow.withPc (h : SameLow s u) (n : Nat) : SameLow { s with pc := n } { u with pc := n } where
  rest := by rw [h.rest]
  low := h.low

/-- Two answers of an instruction at `pc` that agree in everything but the upper halves of the registers, and in the whole
of the register it writes when it goes on. -/
def AgreeLow (i : Instr) (pc : Nat) (a b : StepResult) : Prop :=
  ∃ t w, a = .next t ∧ b = .next w ∧ SameLow t w ∧ (t.pc ≠ pc → ∀ r, i.writtenReg = some r → t.reg r = w.reg r)

section forms

variable {imm : Word32} {off : BitVec 16}

theorem agreeLow_raise (h : SameLow s u) (r : FaultReason) : AgreeLow i s.pc (s.raise r) (u.raise r) :=
  ⟨_, _, rfl, rfl, h.withStatus _, fun hpc => absurd rfl hpc⟩

/-- Both read a register that holds values with one low half, or both raise the same fault. -/
theorem agreeLow_withReg {k l : Word → StepResult} (h : SameLow s u)
    (hk : ∀ a b, low32 a = low32 b → AgreeLow i s.pc (k a) (l b)) : AgreeLow i s.pc (s.withReg q k) (u.withReg q l) := by
  have hlow := h.low q
  cases ha : s.reg q with
  | none =>
    have hb : u.reg q = none := by rw [ha] at hlow; exact Option.map_eq_none_iff.mp hlow.symm
    rw [State.withReg_of_none _ _ _ ha, State.withReg_of_none _ _ _ hb]
    exact agreeLow_raise h _
  | some a =>
    rw [ha] at hlow
    obtain ⟨b, hb, hab⟩ := Option.map_eq_some_iff.mp hlow.symm
    rw [State.withReg_of_some _ _ _ _ ha, State.withReg_of_some _ _ _ _ hb]
    exact hk a b hab.symm

theorem agreeLow_writeNext (h : SameLow s u) (hw : i.writtenReg = some dst) (v : Word) :
    AgreeLow i s.pc (s.writeNext dst v) (u.writeNext dst v) := by
  refine ⟨_, _, rfl, rfl, (h.setReg dst v).advance 1, fun _ r hr => ?_⟩
  obtain rfl : dst = r := Option.some.inj (hw.symm.trans hr)
  simp

theorem agreeLow_writeQuotient {n : Nat} (h : SameLow s u) (hw : i.writtenReg = some dst) (x y : BitVec n) :
    AgreeLow i s.pc (s.writeQuotient dst x y) (u.writeQuotient dst x y) := by
  have hparams : u.params = s.params := by rw [h.rest]
  have hdraws : u.draws = s.draws := by rw [h.rest]
  simp only [State.writeQuotient, hparams, hdraws]
  split
  · exact agreeLow_writeNext h.drew hw _
  · exact agreeLow_writeNext h hw _

theorem agreeLow_checkTarget {k l : Nat → StepResult} (h : SameLow s u) (hk : ∀ n, AgreeLow i s.pc (k n) (l n))
    (target : Int) : AgreeLow i s.pc (s.checkTarget target k) (u.checkTarget target l) := by
  have hprogram : u.program = s.program := by rw [h.rest]
  unfold State.checkTarget
  rw [hprogram]
  split_ifs
  · exact agreeLow_raise h _
  · exact agreeLow_raise h _
  · exact hk _

theorem agreeLow_goto (h : SameLow s u) (hw : i.writtenReg = none) (k : Int) :
    AgreeLow i s.pc (s.goto (s.target k)) (u.goto (u.target k)) := by
  have htarget : u.target k = s.target k := by rw [h.rest]; rfl
  rw [htarget]
  exact agreeLow_checkTarget h (fun n => ⟨_, _, rfl, rfl, h.withPc n, fun _ r hr => by rw [hw] at hr; cases hr⟩) _

theorem agreeLow_jumpIf (h : SameLow s u) (hw : i.writtenReg = none) (taken : Bool) :
    AgreeLow i s.pc (s.jumpIf taken off) (u.jumpIf taken off) := by
  cases taken with
  | true => exact agreeLow_goto h hw _
  | false => exact ⟨_, _, rfl, rfl, h.advance 1, fun _ r hr => by rw [hw] at hr; cases hr⟩

theorem agreeLow_alu32K {f : Word32 → Word32 → Word32} (h : SameLow s u) (hw : i.writtenReg = some dst) :
    AgreeLow i s.pc (alu32K f dst imm s) (alu32K f dst imm u) :=
  agreeLow_withReg h fun _ _ ha => ha ▸ agreeLow_writeNext h hw _

theorem agreeLow_alu32X {f : Word32 → Word32 → Word32} (h : SameLow s u) (hw : i.writtenReg = some dst) :
    AgreeLow i s.pc (alu32X f dst src s) (alu32X f dst src u) :=
  agreeLow_withReg h fun _ _ ha => agreeLow_withReg h fun _ _ hb => ha ▸ hb ▸ agreeLow_writeNext h hw _

theorem agreeLow_alu32Unary {f : Word32 → Word32} (h : SameLow s u) (hw : i.writtenReg = some dst) :
    AgreeLow i s.pc (alu32Unary f dst s) (alu32Unary f dst u) :=
  agreeLow_withReg h fun _ _ ha => ha ▸ agreeLow_writeNext h hw _

theorem agreeLow_moveX {f : Word → Word} (h : SameLow s u) (hw : i.writtenReg = some dst)
    (hf : ∀ a b, low32 a = low32 b → f a = f b) : AgreeLow i s.pc (moveX f dst src s) (moveX f dst src u) :=
  agreeLow_withReg h fun a b hab => hf a b hab ▸ agreeLow_writeNext h hw _

theorem agreeLow_sdiv32K (h : SameLow s u) (hw : i.writtenReg = some dst) :
    AgreeLow i s.pc (sdiv32K dst imm s) (sdiv32K dst imm u) :=
  agreeLow_withReg h fun _ _ ha => ha ▸ agreeLow_writeQuotient h hw _ _

theorem agreeLow_sdiv32X (h : SameLow s u) (hw : i.writtenReg = some dst) :
    AgreeLow i s.pc (sdiv32X dst src s) (sdiv32X dst src u) :=
  agreeLow_withReg h fun _ _ ha => agreeLow_withReg h fun _ _ hb => ha ▸ hb ▸ agreeLow_writeQuotient h hw _ _

theorem agreeLow_jump32K {c : Word32 → Word32 → Bool} (h : SameLow s u) (hw : i.writtenReg = none) :
    AgreeLow i s.pc (jump32K c dst off imm s) (jump32K c dst off imm u) :=
  agreeLow_withReg h fun _ _ ha => ha ▸ agreeLow_jumpIf h hw _

theorem agreeLow_jump32X {c : Word32 → Word32 → Bool} (h : SameLow s u) (hw : i.writtenReg = none) :
    AgreeLow i s.pc (jump32X c dst src off s) (jump32X c dst src off u) :=
  agreeLow_withReg h fun _ _ ha => agreeLow_withReg h fun _ _ hb => ha ▸ hb ▸ agreeLow_jumpIf h hw _

/-- `MOVSX` of 8 or 16 bits takes them from the low half. -/
theorem signExtendLow_congr {w n : Nat} (hw : w ≤ 32) (a b : Word) (h : low32 a = low32 b) :
    signExtendLow w n a = signExtendLow w n b := by
  have hlow (v : Word) : v.setWidth w = (low32 v).setWidth w := (BitVec.setWidth_setWidth_of_le v hw).symm
  rw [signExtendLow, hlow, h, ← hlow, signExtendLow]

end forms

/-- Class `ALU` but for the byte swaps, and class `JMP32` (rules R107, R240). -/
def SeesLowHalves (i : Instr) : Prop :=
  (i.fields.opcode &&& 7#8 = 4#8 ∧ i.fields.opcode >>> 4 ≠ 13#8) ∨ i.fields.opcode &&& 7#8 = 6#8

/-- An instruction that sees low halves only, from two states that agree in them. -/
theorem exec_agreeLow (h : SameLow s u) (hclass : SeesLowHalves i) : AgreeLow i s.pc (exec i s) (exec i u) := by
  cases i with
  | aluAddK | aluSubK | aluMulK | aluDivK | aluOrK | aluAndK | aluLshK | aluRshK | aluModK | aluSmodK | aluXorK
    | aluArshK =>
    exact agreeLow_alu32K h rfl
  | aluAddX | aluSubX | aluMulX | aluDivX | aluOrX | aluAndX | aluLshX | aluRshX | aluModX | aluSmodX | aluXorX
    | aluArshX =>
    exact agreeLow_alu32X h rfl
  | aluSdivK => exact agreeLow_sdiv32K h rfl
  | aluSdivX => exact agreeLow_sdiv32X h rfl
  | aluNegK => exact agreeLow_alu32Unary h rfl
  | aluMovK => exact agreeLow_writeNext h rfl _
  | aluMovX => exact agreeLow_moveX h rfl fun _ _ hlow => congrArg zext64 hlow
  | aluMovsx8X | aluMovsx16X =>
    exact agreeLow_moveX h rfl fun a b hlow => congrArg zext64 (signExtendLow_congr (by decide) a b hlow)
  | jmp32Ja => exact agreeLow_goto h rfl _
  | jmp32JeqK | jmp32JgtK | jmp32JgeK | jmp32JsetK | jmp32JneK | jmp32JsgtK | jmp32JsgeK | jmp32JltK
    | jmp32JleK | jmp32JsltK | jmp32JsleK =>
    exact agreeLow_jump32K h rfl
  | jmp32JeqX | jmp32JgtX | jmp32JgeX | jmp32JsetX | jmp32JneX | jmp32JsgtX | jmp32JsgeX | jmp32JltX
    | jmp32JleX | jmp32JsltX | jmp32JsleX =>
    exact agreeLow_jump32X h rfl
  | _ =>
    simp [SeesLowHalves, Instr.fields, fieldsDstImm, fieldsDstSrc, fieldsDst, fieldsDstOffImm, fieldsDstSrcOff, fieldsImm]
      at hclass

/-- Settles O30. -/
theorem upperHalvesDoNotMatter : Obligations.UpperHalvesDoNotMatter := by
  intro i s u t w hclass hrest hlow ht hw
  obtain ⟨t', w', ht', hw', hsame, hwritten⟩ := exec_agreeLow ⟨hrest, hlow⟩ hclass
  cases ht.symm.trans ht'
  cases hw.symm.trans hw'
  exact ⟨by rw [hsame.rest], by rw [hsame.rest], hsame.rest, hsame.low, hwritten⟩

end Sys2Proof.Machine
end

section
/-!
SUPPORT. Arithmetic on registers that hold values: sums, differences, products and signed division on integers, the bitwise
operations bit by bit, negation and moves, and the byte swaps byte by byte (40_alu.md, 41_byteswap.md).
-/

namespace Sys2Proof.Machine

variable {s : State} {dst src : Reg} {imm : Word32} {a b : Word}

/-! ### Signed operations on integers (rules R150, R157, R167) -/

/-- A result that is known up to multiples of 2^n as a signed number is known up to them as it is zero-extended. -/
theorem setWidth_eq_ofInt_bmod {n : Nat} {v : BitVec n} {x : Int} (h : v.toInt = x.bmod (2 ^ n)) :
    v.setWidth 64 = BitVec.ofInt 64 (x % 2 ^ n) := by
  have hmod : x.bmod (2 ^ n) % 2 ^ n = x % 2 ^ n := mod_cast Int.bmod_emod (x := x) (m := 2 ^ n)
  rw [setWidth_eq_ofInt, h, hmod]

/-- An operation that is `g` on signed numbers modulo 2^n writes what `g` gives for the signed operands of each form, an
immediate of `ALU64` being sign-extended (rules R150, R151). -/
theorem AluForms.writes_of_signed {f : ∀ n : Nat, BitVec n → BitVec n → BitVec n} {k32 k64 : Reg → Word32 → Instr}
    {x32 x64 : Reg → Reg → Instr} (F : AluForms f k32 x32 k64 x64) {g : Int → Int → Int}
    (hg : ∀ n (x y : BitVec n), (f n x y).setWidth 64 = BitVec.ofInt 64 (g x.toInt y.toInt % 2 ^ n))
    (ha : s.reg dst = some a) (hb : s.reg src = some b) :
    ∀ p ∈ ([(k32 dst imm, 32, (low32 a).toInt, imm.toInt), (x32 dst src, 32, (low32 a).toInt, (low32 b).toInt),
        (k64 dst imm, 64, a.toInt, imm.toInt), (x64 dst src, 64, a.toInt, b.toInt)] : List (Instr × Nat × Int × Int)),
      exec p.1 s = s.writeNext dst (BitVec.ofInt 64 (g p.2.2.1 p.2.2.2 % 2 ^ p.2.1)) := by
  have hsext : (sext64 imm).toInt = imm.toInt := BitVec.toInt_signExtend_of_le (by decide)
  simp only [List.forall_mem_cons]
  exact ⟨(F.k32_writes ha).trans (by rw [hg]), (F.x32_writes ha hb).trans (by rw [hg]),
    (F.k64_writes ha).trans (by rw [hg, hsext]), (F.x64_writes ha hb).trans (by rw [hg]), List.forall_mem_nil _⟩

theorem addForms : AluForms @opAdd .aluAddK .aluAddX .alu64AddK .alu64AddX :=
  ⟨fun _ _ _ => rfl, fun _ _ _ => rfl, fun _ _ _ => rfl, fun _ _ _ => rfl⟩

theorem subForms : AluForms @opSub .aluSubK .aluSubX .alu64SubK .alu64SubX :=
  ⟨fun _ _ _ => rfl, fun _ _ _ => rfl, fun _ _ _ => rfl, fun _ _ _ => rfl⟩

theorem mulForms : AluForms @opMul .aluMulK .aluMulX .alu64MulK .alu64MulX :=
  ⟨fun _ _ _ => rfl, fun _ _ _ => rfl, fun _ _ _ => rfl, fun _ _ _ => rfl⟩

/-- Settles O20. -/
theorem addSubMulResults : Obligations.AddSubMulResults :=
  fun _ _ _ _ _ _ ha hb =>
    ⟨addForms.writes_of_signed (g := (· + ·)) (fun _ x y => setWidth_eq_ofInt_bmod (BitVec.toInt_add x y)) ha hb,
      subForms.writes_of_signed (g := (· - ·)) (fun _ _ _ => setWidth_eq_ofInt_bmod BitVec.toInt_sub) ha hb,
      mulForms.writes_of_signed (g := (· * ·)) (fun _ x y => setWidth_eq_ofInt_bmod (BitVec.toInt_mul x y)) ha hb⟩

/-! ### Signed division (rules R154 to R158) -/

theorem toInt_eq_zero_iff {n : Nat} {x : BitVec n} : x.toInt = 0 ↔ x = 0#n := by
  rw [← BitVec.toInt_zero (w := n), BitVec.toInt_inj]

/-- `SMOD` on signed numbers: the remainder of truncated division, or the dividend for a zero divisor. -/
theorem toInt_opSmod {n : Nat} (x y : BitVec n) :
    (opSmod x y).toInt = if y.toInt = 0 then x.toInt else x.toInt - y.toInt * x.toInt.tdiv y.toInt := by
  simp only [toInt_eq_zero_iff, opSmod]
  split
  · rfl
  · rw [BitVec.toInt_srem, Int.tmod_def]

/-- `SDIV` on signed numbers: the truncated quotient, wrapped, or 0 for a zero divisor. -/
theorem toInt_opSdiv {n : Nat} (x y : BitVec n) :
    (opSdiv x y).toInt = (if y.toInt = 0 then 0 else x.toInt.tdiv y.toInt).bmod (2 ^ n) := by
  simp only [toInt_eq_zero_iff, opSdiv]
  split
  · rw [BitVec.toInt_zero, Int.zero_bmod]
  · exact BitVec.toInt_sdiv x y

/-- The one quotient that does not fit, on integers (rule R158). -/
theorem sdivOverflows_iff {n : Nat} (hn : 0 < n) (x y : BitVec n) :
    sdivOverflows x y = true ↔ x.toInt = -2 ^ (n - 1) ∧ y.toInt = -1 := by
  have hneg : (BitVec.allOnes n).toInt = -1 := by rw [BitVec.toInt_allOnes, if_pos hn]
  rw [← BitVec.toInt_intMin_of_pos hn, ← hneg, BitVec.toInt_inj, BitVec.toInt_inj]
  simp [sdivOverflows]

/-- The four signed divisions end with the quotient of their operands, an immediate of `ALU64` being sign-extended. -/
theorem exec_sdiv (ha : s.reg dst = some a) (hb : s.reg src = some b) :
    ∀ p ∈ ([(.aluSdivK dst imm, 32, (low32 a).toInt, imm.toInt), (.aluSdivX dst src, 32, (low32 a).toInt, (low32 b).toInt),
        (.alu64SdivK dst imm, 64, a.toInt, imm.toInt), (.alu64SdivX dst src, 64, a.toInt, b.toInt)] :
        List (Instr × Nat × Int × Int)),
      0 < p.2.1 ∧ ∃ x y : BitVec p.2.1, x.toInt = p.2.2.1 ∧ y.toInt = p.2.2.2 ∧ exec p.1 s = s.writeQuotient dst x y := by
  have readDst (k : Word → StepResult) : s.withReg dst k = k a := State.withReg_of_some _ _ _ _ ha
  have readBoth (k : Word → Word → StepResult) : (s.withReg dst fun v => s.withReg src (k v)) = k a b :=
    (readDst _).trans (State.withReg_of_some _ _ _ _ hb)
  simp only [List.forall_mem_cons]
  exact ⟨⟨by decide, low32 a, imm, rfl, rfl, readDst _⟩, ⟨by decide, low32 a, low32 b, rfl, rfl, readBoth _⟩,
    ⟨by decide, a, sext64 imm, rfl, BitVec.toInt_signExtend_of_le (by decide), readDst _⟩,
    ⟨by decide, a, b, rfl, rfl, readBoth _⟩, List.forall_mem_nil _⟩

/-- Settles O24: a quotient that is not drawn is the wrapped one of `SDIV`. -/
theorem signedDivisionAndModulo : Obligations.SignedDivisionAndModulo := by
  refine fun s dst src imm a b ha hb => ⟨fun p hp hfits => ?_,
    smodForms.writes_of_signed (g := fun x y => if y = 0 then x else x - y * x.tdiv y)
      (fun n x y => by rw [setWidth_eq_ofInt, toInt_opSmod]) ha hb⟩
  obtain ⟨hn, x, y, hx, hy, hexec⟩ := exec_sdiv ha hb p hp
  have hnot : ¬(s.params.sdivOverflow = .draw ∧ sdivOverflows x y = true) := by
    rw [sdivOverflows_iff hn, hx, hy]
    rintro ⟨hdraw, hover⟩
    obtain hwrap | hin := hfits
    · rw [hdraw] at hwrap
      cases hwrap
    · exact hin hover
  rw [hexec, State.writeQuotient, if_neg hnot, ← hx, ← hy, setWidth_eq_ofInt_bmod (toInt_opSdiv x y)]
  rfl

/-- Settles O25: the drawn word is cut to `n` bits. -/
theorem signedDivisionDrawsOnOverflow : Obligations.SignedDivisionDrawsOnOverflow := by
  intro s dst src imm a b ha hb hdraw p hp hmin hminus
  obtain ⟨hn, x, y, hx, hy, hexec⟩ := exec_sdiv ha hb p hp
  have hover := (sdivOverflows_iff hn x y).mpr ⟨hx.trans hmin, hy.trans hminus⟩
  refine ⟨((Config.drawnWord s.draws).setWidth p.2.1).setWidth 64, ?_, ?_⟩
  · rw [BitVec.toNat_setWidth]
    exact (Nat.mod_le _ _).trans_lt (BitVec.isLt _)
  · rw [hexec, State.writeQuotient, if_pos ⟨hdraw, hover⟩]
    rfl

/-! ### Bitwise operations -/

/-- Bit `k` of a sign-extended immediate: its own, or its bit 31 above that. -/
theorem getLsbD_sext64 (imm : Word32) {k : Nat} (hk : k < 64) : (sext64 imm).getLsbD k = imm.getLsbD (min k 31) := by
  rw [sext64, BitVec.getLsbD_signExtend, BitVec.msb_eq_getLsbD_last]
  split
  · next h => simp [hk, Nat.min_eq_left (Nat.le_of_lt_succ h)]
  · next h => simp [hk, Nat.min_eq_right (by omega : 31 ≤ k)]

/-- An operation that is `g` on every bit writes what `g` gives for the bits of the operands of each form. -/
theorem AluForms.writes_of_bits {f : ∀ n : Nat, BitVec n → BitVec n → BitVec n} {k32 k64 : Reg → Word32 → Instr}
    {x32 x64 : Reg → Reg → Instr} (F : AluForms f k32 x32 k64 x64) {g : Bool → Bool → Bool}
    (hg : ∀ n (x y : BitVec n) k, k < n → (f n x y).getLsbD k = g (x.getLsbD k) (y.getLsbD k))
    (ha : s.reg dst = some a) (hb : s.reg src = some b) :
    ∀ p ∈ ([(k32 dst imm, 32, g, imm.getLsbD), (x32 dst src, 32, g, b.getLsbD),
        (k64 dst imm, 64, g, fun k => imm.getLsbD (min k 31)), (x64 dst src, 64, g, b.getLsbD)] :
        List (Instr × Nat × (Bool → Bool → Bool) × (Nat → Bool))),
      ∃ v : Word, (∀ k, k < 64 → v.getLsbD k = (decide (k < p.2.1) && p.2.2.1 (a.getLsbD k) (p.2.2.2 k))) ∧
        exec p.1 s = s.writeNext dst v := by
  have hbits {n : Nat} (x y : BitVec n) (y' : Nat → Bool) (hx : ∀ k, k < n → x.getLsbD k = a.getLsbD k)
      (hy : ∀ k, k < n → y.getLsbD k = y' k) (k : Nat) (hk : k < 64) :
      ((f n x y).setWidth 64).getLsbD k = (decide (k < n) && g (a.getLsbD k) (y' k)) := by
    rw [BitVec.getLsbD_setWidth, decide_eq_true hk, Bool.true_and]
    by_cases hkn : k < n
    · rw [hg n x y k hkn, hx k hkn, hy k hkn, decide_eq_true hkn, Bool.true_and]
    · rw [BitVec.getLsbD_of_ge _ _ (Nat.le_of_not_lt hkn), decide_eq_false hkn, Bool.false_and]
  have hlow (w : Word) (k : Nat) (hk : k < 32) : (low32 w).getLsbD k = w.getLsbD k := by
    rw [low32, BitVec.getLsbD_setWidth, decide_eq_true hk, Bool.true_and]
  simp only [List.forall_mem_cons]
  exact ⟨⟨_, hbits _ _ _ (hlow a) (fun _ _ => rfl), F.k32_writes ha⟩, ⟨_, hbits _ _ _ (hlow a) (hlow b), F.x32_writes ha hb⟩,
    ⟨_, hbits _ _ _ (fun _ _ => rfl) (fun _ => getLsbD_sext64 imm), F.k64_writes ha⟩,
    ⟨_, hbits _ _ _ (fun _ _ => rfl) (fun _ _ => rfl), F.x64_writes ha hb⟩, List.forall_mem_nil _⟩

theorem orForms : AluForms @opOr .aluOrK .aluOrX .alu64OrK .alu64OrX :=
  ⟨fun _ _ _ => rfl, fun _ _ _ => rfl, fun _ _ _ => rfl, fun _ _ _ => rfl⟩

theorem andForms : AluForms @opAnd .aluAndK .aluAndX .alu64AndK .alu64AndX :=
  ⟨fun _ _ _ => rfl, fun _ _ _ => rfl, fun _ _ _ => rfl, fun _ _ _ => rfl⟩

theorem xorForms : AluForms @opXor .aluXorK .aluXorX .alu64XorK .alu64XorX :=
  ⟨fun _ _ _ => rfl, fun _ _ _ => rfl, fun _ _ _ => rfl, fun _ _ _ => rfl⟩

/-- Settles O26: the list of the statement is those of the three operations one after the other. -/
theorem bitwiseResults : Obligations.BitwiseResults := by
  intro s dst src imm a b ha hb
  have hor := orForms.writes_of_bits (imm := imm) (fun _ _ _ _ _ => BitVec.getLsbD_or) ha hb
  have hand := andForms.writes_of_bits (imm := imm) (fun _ _ _ _ _ => BitVec.getLsbD_and) ha hb
  have hxor := xorForms.writes_of_bits (imm := imm) (fun _ _ _ _ _ => BitVec.getLsbD_xor) ha hb
  exact List.forall_mem_append.mpr ⟨hor, List.forall_mem_append.mpr ⟨hand, hxor⟩⟩

/-! ### Negation and moves (rules R160, R161) -/

/-- The low half of a register, zero-extended, is the register modulo 2^32. -/
theorem zext64_low32 (b : Word) : zext64 (low32 b) = BitVec.ofInt 64 (b.toInt % 2 ^ 32) :=
  setWidth_eq_ofInt_bmod <| by
    rw [low32, BitVec.toInt_setWidth, BitVec.toInt_eq_toNat_bmod, Int.bmod_bmod_of_dvd (by decide)]

/-- The operand of a 32-bit `MOVSX`, zero-extended. -/
theorem zext64_signExtendLow {w : Nat} (hw : w ≤ 32) (b : Word) :
    zext64 (signExtendLow w 32 b) = BitVec.ofInt 64 ((b.setWidth w).toInt % 2 ^ 32) := by
  rw [zext64, setWidth_eq_ofInt, signExtendLow, BitVec.toInt_signExtend_of_le hw]

/-- Settles O28. -/
theorem negationAndMoveResults : Obligations.NegationAndMoveResults := by
  refine fun s dst src imm => ⟨fun a ha => ?neg, ?movK, fun b hb => ?movX⟩
  case neg =>
    have readDst (k : Word → StepResult) : s.withReg dst k = k a := State.withReg_of_some _ _ _ _ ha
    have hneg {n : Nat} (x : BitVec n) : (opNeg x).setWidth 64 = BitVec.ofInt 64 (-x.toInt % 2 ^ n) :=
      setWidth_eq_ofInt_bmod BitVec.toInt_neg
    simp only [List.forall_mem_cons]
    exact ⟨(readDst _).trans (by rw [zext64, hneg]; rfl),
      (readDst _).trans (by rw [← hneg, BitVec.setWidth_eq]; rfl), List.forall_mem_nil _⟩
  case movK =>
    simp only [List.forall_mem_cons]
    exact ⟨congrArg (s.writeNext dst) (setWidth_eq_ofInt imm), rfl, List.forall_mem_nil _⟩
  case movX =>
    have write {f : Word → Word} {v : Word} (hf : f b = v) : moveX f dst src s = s.writeNext dst v :=
      (State.withReg_of_some _ _ _ _ hb).trans (by rw [hf])
    simp only [List.forall_mem_cons]
    exact ⟨write (zext64_low32 b), write BitVec.ofInt_toInt.symm, write (zext64_signExtendLow (by decide) b),
      write (zext64_signExtendLow (by decide) b), write rfl, write rfl, write rfl, List.forall_mem_nil _⟩

/-! ### Byte swaps (rules R12, R240 to R242) -/

/-- Byte `k` of `n` bytes as a swap moves them: from the other end, or from the same place. -/
def swapIndex (reversed : Bool) (n k : Nat) : Nat := if reversed then n - 1 - k else k

/-- A function on `n` bytes puts byte `swapIndex reversed n k` in place `k`. -/
def MovesBytes (n : Nat) (reversed : Bool) (f : BitVec (8 * n) → BitVec (8 * n)) : Prop :=
  ∀ v k, k < n → (f v).extractLsb' (8 * k) 8 = v.extractLsb' (8 * swapIndex reversed n k) 8

theorem movesBytes_id (n : Nat) : MovesBytes n false id := fun _ _ _ => rfl

theorem movesBytes_bswap16 : MovesBytes 2 true bswap16 := by
  intro v k hk
  match k, hk with
  | 0, _ => exact append_low _ _
  | 1, _ => exact (append_high _ _ 0).trans BitVec.extractLsb'_eq_self

theorem movesBytes_bswap32 : MovesBytes 4 true bswap32 := by
  intro v k hk
  match k, hk with
  | 0, _ => exact append_low _ _
  | 1, _ => exact (append_high _ _ 0).trans (append_low _ _)
  | 2, _ => exact (append_high _ _ 1).trans ((append_high _ _ 0).trans (append_low _ _))
  | 3, _ => exact (append_high _ _ 2).trans ((append_high _ _ 1).trans ((append_high _ _ 0).trans BitVec.extractLsb'_eq_self))

/-- `bswap64` makes of the bytes the slot that holds them in the other order. -/
theorem movesBytes_bswap64 : MovesBytes 8 true bswap64 := by
  intro v k hk
  obtain ⟨h0, h1, h2, h3, h4, h5, h6, h7⟩ := slotByte_slotOfBytes (v.extractLsb' 56 8) (v.extractLsb' 48 8)
    (v.extractLsb' 40 8) (v.extractLsb' 32 8) (v.extractLsb' 24 8) (v.extractLsb' 16 8) (v.extractLsb' 8 8)
    (v.extractLsb' 0 8)
  match k, hk with
  | 0, _ => exact h0
  | 1, _ => exact h1
  | 2, _ => exact h2
  | 3, _ => exact h3
  | 4, _ => exact h4
  | 5, _ => exact h5
  | 6, _ => exact h6
  | 7, _ => exact h7

/-- A little-endian conversion swaps on a big-endian host. -/
theorem movesBytes_toLittle {n : Nat} {f : BitVec (8 * n) → BitVec (8 * n)} (h : MovesBytes n true f) (e : Endian) :
    MovesBytes n (e == .big) (toLittle e f) := by
  cases e
  · exact movesBytes_id n
  · exact h

/-- A big-endian conversion swaps on a little-endian host. -/
theorem movesBytes_toBig {n : Nat} {f : BitVec (8 * n) → BitVec (8 * n)} (h : MovesBytes n true f) (e : Endian) :
    MovesBytes n (e == .little) (toBig e f) := by
  cases e
  · exact h
  · exact movesBytes_id n

/-- A swap of width `8 * n` writes the bytes that it moves, and zeros above them (rule R242). -/
theorem swapLow_writes {n : Nat} {reversed : Bool} {f : BitVec (8 * n) → BitVec (8 * n)} (h : MovesBytes n reversed f)
    (ha : s.reg dst = some a) :
    ∃ v : Word, (∀ k, k < 8 → v.extractLsb' (8 * k) 8 =
        if k < n then a.extractLsb' (8 * (if reversed then n - 1 - k else k)) 8 else 0) ∧
      swapLow (8 * n) f dst s = s.writeNext dst v := by
  refine ⟨(f (a.setWidth (8 * n))).setWidth 64, fun k hk => ?_, State.withReg_of_some _ _ _ _ ha⟩
  rw [BitVec.extractLsb'_setWidth_of_le (by omega)]
  split
  · next hkn =>
    have hindex : swapIndex reversed n k < n := by
      unfold swapIndex
      split <;> omega
    rw [h _ k hkn, BitVec.extractLsb'_setWidth_of_le (by omega)]
    rfl
  · next hkn =>
    apply BitVec.eq_of_getLsbD_eq
    intro j hj
    rw [BitVec.getLsbD_extractLsb', BitVec.getLsbD_of_ge _ _ (by omega), Bool.and_false]
    exact BitVec.getLsbD_zero.symm

/-- Settles O29. -/
theorem byteSwapResults : Obligations.ByteSwapResults := by
  intro s dst a ha
  simp only [List.forall_mem_cons]
  exact ⟨swapLow_writes (movesBytes_toLittle movesBytes_bswap16 _) ha,
    swapLow_writes (movesBytes_toLittle movesBytes_bswap32 _) ha,
    swapLow_writes (movesBytes_toLittle movesBytes_bswap64 _) ha,
    swapLow_writes (movesBytes_toBig movesBytes_bswap16 _) ha,
    swapLow_writes (movesBytes_toBig movesBytes_bswap32 _) ha,
    swapLow_writes (movesBytes_toBig movesBytes_bswap64 _) ha,
    swapLow_writes movesBytes_bswap16 ha, swapLow_writes movesBytes_bswap32 ha,
    swapLow_writes movesBytes_bswap64 ha, List.forall_mem_nil _⟩

end Sys2Proof.Machine
end

section
/-!
SUPPORT. Control transfer: taken and untaken jumps and the 44 conditions, program-local calls and returns, and helper calls
(42_jump.md, 42_jump_conditional.md).
-/

namespace Sys2Proof.Machine

variable {s : State} {dst src : Reg} {off : BitVec 16} {imm : Word32} {a b : Word}

/-! ### Targets (rules R260, R262, R263) -/

/-- A jump to a target that is no slot of the program. -/
theorem State.goto_of_outside {t : Int} (h : t < 0 ∨ (s.program.length : Int) ≤ t) :
    s.goto t = .next { s with status := .faulted (.jumpOutOfRange t) } :=
  State.checkTarget_of_outside s t _ h

/-- A jump to a second slot. -/
theorem State.goto_of_second {t : Nat} (h : t < s.program.length) (h2 : isSecondSlot s.program t = true) :
    s.goto t = .next { s with status := .faulted (.jumpIntoWide t) } :=
  State.checkTarget_of_second s t _ h h2

/-- A jump to a slot that starts an instruction. -/
theorem State.goto_of_good {t : Nat} (h : t < s.program.length) (h2 : isSecondSlot s.program t = false) :
    s.goto t = .next { s with pc := t } :=
  State.checkTarget_of_good s t _ h h2

/-! ### Conditional jumps (rules R261, R264, R269) -/

/-- The conditions on integers of the two equality tests (rule R264). -/
theorem condEq_eq {n : Nat} (x y : BitVec n) : condEq x y = decide (x.toInt = y.toInt) := by
  rw [condEq, Bool.beq_eq_decide_eq]
  simp only [BitVec.toInt_inj]

theorem condNe_eq {n : Nat} (x y : BitVec n) : condNe x y = decide (x.toInt ≠ y.toInt) := by
  simp only [condNe, ne_eq, BitVec.toInt_inj, bne, Bool.beq_eq_decide_eq, decide_not]

theorem condSet_eq {n : Nat} (x y : BitVec n) : condSet x y = decide (x &&& y ≠ 0) := by
  simp [condSet, bne, Bool.beq_eq_decide_eq]

theorem sext64_toInt (imm : Word32) : (sext64 imm).toInt = imm.toInt := BitVec.toInt_signExtend_of_le (by decide)

/-- Each of the 44 conditional jumps ends as its condition of the table says. -/
theorem exec_conditionalJump (ha : s.reg dst = some a) (hb : s.reg src = some b) :
    ∀ p ∈ Expected.conditionalJumps dst src off imm a b, exec p.1 s = s.jumpIf p.2 off := by
  have readDst (k : Word → StepResult) : s.withReg dst k = k a := State.withReg_of_some _ _ _ _ ha
  have readBoth (k : Word → Word → StepResult) : (s.withReg dst fun v => s.withReg src (k v)) = k a b :=
    (readDst _).trans (State.withReg_of_some _ _ _ _ hb)
  have k64 {c : Word → Word → Bool} {r : Bool} (h : c a (sext64 imm) = r) : jump64K c dst off imm s = s.jumpIf r off :=
    h ▸ readDst _
  have k64Signed {c : Word → Word → Bool} (g : Int → Int → Bool) (h : ∀ x y : Word, c x y = g x.toInt y.toInt) :
      jump64K c dst off imm s = s.jumpIf (g a.toInt imm.toInt) off := k64 (by rw [h, sext64_toInt])
  have x64 {c : Word → Word → Bool} {r : Bool} (h : c a b = r) : jump64X c dst src off s = s.jumpIf r off :=
    h ▸ readBoth _
  have k32 {c : Word32 → Word32 → Bool} {r : Bool} (h : c (low32 a) imm = r) : jump32K c dst off imm s = s.jumpIf r off :=
    h ▸ readDst _
  have x32 {c : Word32 → Word32 → Bool} {r : Bool} (h : c (low32 a) (low32 b) = r) :
      jump32X c dst src off s = s.jumpIf r off :=
    h ▸ readBoth _
  simp only [Expected.conditionalJumps, List.forall_mem_cons]
  exact ⟨
    k64Signed (fun x y => decide (x = y)) condEq_eq, x64 (condEq_eq _ _), k32 (condEq_eq _ _), x32 (condEq_eq _ _),
    k64 rfl, x64 rfl, k32 rfl, x32 rfl,
    k64 rfl, x64 rfl, k32 rfl, x32 rfl,
    k64 (condSet_eq _ _), x64 (condSet_eq _ _), k32 (condSet_eq _ _), x32 (condSet_eq _ _),
    k64Signed (fun x y => decide (x ≠ y)) condNe_eq, x64 (condNe_eq _ _), k32 (condNe_eq _ _), x32 (condNe_eq _ _),
    k64Signed (fun x y => decide (y < x)) (fun _ _ => rfl), x64 rfl, k32 rfl, x32 rfl,
    k64Signed (fun x y => decide (y ≤ x)) (fun _ _ => rfl), x64 rfl, k32 rfl, x32 rfl,
    k64 rfl, x64 rfl, k32 rfl, x32 rfl,
    k64 rfl, x64 rfl, k32 rfl, x32 rfl,
    k64Signed (fun x y => decide (x < y)) (fun _ _ => rfl), x64 rfl, k32 rfl, x32 rfl,
    k64Signed (fun x y => decide (x ≤ y)) (fun _ _ => rfl), x64 rfl, k32 rfl, x32 rfl, List.forall_mem_nil _⟩

/-- `JA` goes to its target, of either distance. -/
theorem exec_ja : ∀ p ∈ ([(.jmpJa off, off.toInt), (.jmp32Ja imm, imm.toInt)] : List (Instr × Int)),
    exec p.1 s = s.goto (s.pc + 1 + p.2) := by
  simp only [List.forall_mem_cons]
  exact ⟨rfl, rfl, List.forall_mem_nil _⟩

/-- Settles O16: `JA`, and a conditional jump whose condition holds, go to their target, which is checked there. -/
theorem jumpTargetFaults : Obligations.JumpTargetFaults := by
  intro s dst src off imm a b ha hb p hp
  have hgoto : exec p.1 s = s.goto (s.pc + 1 + p.2) := by
    obtain hja | hconditional := List.mem_append.mp hp
    · exact exec_ja p hja
    · obtain ⟨q, hq, rfl⟩ := List.mem_map.mp hconditional
      obtain ⟨hq, htaken⟩ := List.mem_filter.mp hq
      rw [exec_conditionalJump ha hb q hq, htaken]
      rfl
  rw [hgoto]
  exact ⟨State.goto_of_outside, fun t ht hlt hsecond => ht ▸ State.goto_of_second hlt hsecond⟩

/-- Settles O31. -/
theorem unconditionalJumpResults : Obligations.UnconditionalJumpResults := by
  intro s off imm t hlt hstart p hp ht
  rw [exec_ja p hp, ← ht]
  exact State.goto_of_good hlt hstart

/-- Settles O32. -/
theorem conditionalJumpResults : Obligations.ConditionalJumpResults := by
  intro s dst src off imm a b ha hb p hp
  rw [exec_conditionalJump ha hb p hp]
  refine ⟨fun htaken t ht hlt hstart => ?taken, fun hnot => ?not⟩
  case taken =>
    rw [htaken, ← State.goto_of_good hlt hstart, ht]
    rfl
  case not =>
    rw [hnot]
    rfl

/-! ### Program-local calls and returns (rules R274 to R279) -/

theorem exec_callLocal_of_deepest (h : s.params.maxCallDepth ≤ s.depth) :
    exec (.jmpCallLocal imm) s = s.raise .callDepthExceeded := if_pos h

/-- Below the greatest depth the target is checked, and the callee entered. -/
theorem exec_callLocal (h : s.depth < s.params.maxCallDepth) :
    exec (.jmpCallLocal imm) s = s.checkTarget (s.pc + 1 + imm.toInt) fun t => .next (s.enter t) :=
  if_neg (Nat.not_le_of_lt h)

/-- Settles O17. -/
theorem localCallFaults : Obligations.LocalCallFaults := by
  refine fun s imm => ⟨exec_callLocal_of_deepest, fun hdepth => ?_⟩
  rw [exec_callLocal hdepth]
  exact ⟨State.checkTarget_of_outside _ _ _, fun t ht hlt hsecond => ht ▸ State.checkTarget_of_second _ _ _ hlt hsecond⟩

/-- Settles O34. -/
theorem localCallResults : Obligations.LocalCallResults := by
  intro s imm t hdepth ht hlt hstart
  refine ⟨(s.enter t).mem, ?_, Memory.read_clearRange _ _ _⟩
  rw [exec_callLocal hdepth, ← ht, State.checkTarget_of_good _ _ _ hlt hstart]
  rfl

theorem exec_exit_of_frame {f : Frame} {rest : List Frame} (h : s.frames = f :: rest) :
    exec .jmpExit s = .next (s.leave f rest) := by
  change execJmpExit s = _
  simp only [execJmpExit, h]

theorem exec_exit_of_no_frame (h : s.frames = []) : exec .jmpExit s = s.withReg .r0 fun v => s.halt v := by
  change execJmpExit s = _
  simp only [execJmpExit, h]

/-- Settles O35. -/
theorem exitResults : Obligations.ExitResults := by
  refine fun s => ⟨fun f rest hf => ⟨(s.leave f rest).mem, exec_exit_of_frame hf, Memory.read_clearRange _ _ _⟩,
    fun hnone => ?_, rfl⟩
  rw [exec_exit_of_no_frame hnone]
  exact ⟨fun v => State.withReg_of_some _ _ _ v, State.withReg_of_none _ _ _⟩

/-- A program-local call that goes on enters its callee. -/
theorem exec_callLocal_running {t : State} (h : exec (.jmpCallLocal imm) s = .next t)
    (ht : t.status = .running) : ∃ n, t = s.enter n := by
  by_cases hd : s.params.maxCallDepth ≤ s.depth
  · rw [exec_callLocal_of_deepest hd] at h
    cases h
    cases ht
  · rw [exec_callLocal (Nat.lt_of_not_le hd), State.checkTarget] at h
    split at h
    · cases h; cases ht
    · split at h
      · cases h; cases ht
      · cases h; exact ⟨_, rfl⟩

/-- Settles O36. -/
theorem callAndExitPreserveTheCaller : Obligations.CallAndExitPreserveTheCaller := by
  intro s t u imm _ hcall ht hframes
  obtain ⟨n, rfl⟩ := exec_callLocal_running hcall ht
  refine ⟨_, exec_exit_of_frame (hframes.trans (State.enter_frames s n)), ?_, ?_, rfl, rfl, rfl⟩
  · simp only [List.forall_mem_cons]
    exact ⟨rfl, rfl, rfl, rfl, rfl, List.forall_mem_nil _⟩
  · simp only [List.forall_mem_cons]
    exact ⟨rfl, rfl, rfl, rfl, rfl, List.forall_mem_nil _⟩

/-! ### Helper calls (rule R273) -/

section helper

variable {table : HelperTable} {id : Word32} {h : Helper}

theorem State.callHelper_of_unknown (hl : lookupTable (s.params.helperTable table) id = none) :
    s.callHelper table id = s.raise (.unknownHelper id) := by
  simp only [State.callHelper, hl]

theorem State.callHelper_of_unwritten (hl : lookupTable (s.params.helperTable table) id = some h) {l r : List Reg} {q : Reg}
    (hregs : argRegs.take h.arity = l ++ q :: r) (hbefore : ∀ x ∈ l, s.reg x ≠ none) (hq : s.reg q = none) :
    s.callHelper table id = s.raise (.uninitRegister q) := by
  simp only [State.callHelper, hl, hregs]
  exact State.withRegs_of_none s l r q _ hbefore hq

variable {args : List Word}

theorem State.callHelper_of_fails (hl : lookupTable (s.params.helperTable table) id = some h)
    (hargs : (argRegs.take h.arity).map s.reg = args.map some) {reason : Nat}
    (hrun : runHelper table id h.body args s.mem s.draws = .fails reason) :
    s.callHelper table id = s.raise (.helperFault id reason) := by
  simp only [State.callHelper, hl]
  rw [State.withRegs_of_some s _ args _ hargs, hrun]

/-- A helper that returns: memory gets its writes, R0 its result, and an external one uses up a draw. -/
theorem State.callHelper_of_returns (hl : lookupTable (s.params.helperTable table) id = some h)
    (hargs : (argRegs.take h.arity).map s.reg = args.map some) {r0 : Word} {writes : List (Word × Option Byte)}
    (hrun : runHelper table id h.body args s.mem s.draws = .returns r0 writes) :
    s.callHelper table id = .next { s with
      regs := (s.regs.set .r0 (some r0)).dropScratch
      mem := applyWrites s.mem writes
      pc := s.pc + 1
      draws := if h.body = .external then s.draws + 1 else s.draws } := by
  simp only [State.callHelper, hl]
  rw [State.withRegs_of_some s _ args _ hargs, hrun]
  by_cases hexternal : h.body = .external
  · simp only [hexternal, if_true]
    rfl
  · simp only [hexternal, if_false]
    rfl

end helper

/-- Both helper calls are `CallHelper`, each with its own table (rules R271, R272). -/
theorem exec_helperCall {id : Word32} :
    ∀ p ∈ ([(.jmpCallHelper id, .static), (.jmpCallBtf id, .btf)] : List (Instr × HelperTable)),
      exec p.1 s = s.callHelper p.2 id := by
  simp only [List.forall_mem_cons]
  exact ⟨rfl, rfl, List.forall_mem_nil _⟩

/-- Settles O18. -/
theorem helperCallFaults : Obligations.HelperCallFaults := by
  intro s id p hp
  rw [exec_helperCall p hp]
  exact ⟨State.callHelper_of_unknown, fun h hl => ⟨fun l r q hregs => State.callHelper_of_unwritten hl hregs,
    fun args reason hargs => State.callHelper_of_fails hl hargs⟩⟩

/-- Settles O33. -/
theorem helperCallResults : Obligations.HelperCallResults := by
  intro s id h args r0 writes p hp hl hargs hrun
  refine ⟨applyWrites s.mem writes, ?_, fun a ha => read_applyWrites_outside _ _ a ha, fun l r w hw hlast => ?_⟩
  · rw [exec_helperCall p hp]
    exact State.callHelper_of_returns hl hargs hrun
  · rw [hw]
    exact read_applyWrites_last _ l r w.1 w.2 hlast

end Sys2Proof.Machine
end

section
/-!
SUPPORT. Data memory: effective addresses, numbers and their bytes in host order, loads, stores and atomic operations that go
through, and those that raise (20_memory.md, 43_load_store.md, 44_atomic.md).
-/

namespace Sys2Proof.Machine

/-! ### Numbers and bytes (rules R61 to R63) -/

theorem hostNumber_eq (e : Endian) (bs : List Byte) : Expected.hostNumber e bs = bytesToNat (hostOrder e bs) := by
  have hlittle (l : List Byte) : l.foldr (fun b n => b.toNat + 256 * n) 0 = bytesToNat l := by
    induction l with
    | nil => rfl
    | cons b rest ih => rw [List.foldr_cons, ih, bytesToNat]
  cases e with
  | little => exact hlittle bs
  | big =>
    rw [hostOrder, ← hlittle, List.foldr_reverse]
    simp only [Expected.hostNumber, Nat.add_comm]

theorem assemble_eq (e : Endian) (bs : List Byte) : assemble e bs = BitVec.ofNat 64 (Expected.hostNumber e bs) := by
  rw [assemble, hostNumber_eq]

theorem hostNumber_lt (e : Endian) (bs : List Byte) : Expected.hostNumber e bs < 256 ^ bs.length := by
  rw [hostNumber_eq, ← hostOrder_length e bs]
  exact bytesToNat_lt _

/-- Bytes that lay out a value one after the other, in the order of the host. -/
theorem layOut_getElem? (e : Endian) {n k : Nat} (v : Word) (hk : k < n) :
    (layOut e n v)[k]? = some (Expected.hostByte e n v.toNat k) := by
  cases e with
  | little => exact natToBytes_getElem? n _ k hk
  | big =>
    have hlen : (natToBytes n v.toNat).length = n := natToBytes_length n _
    rw [layOut, hostOrder, List.getElem?_reverse (by omega), hlen]
    exact natToBytes_getElem? n _ _ (by omega)

/-- A byte below 256^n depends on the number modulo 256^n only. -/
theorem hostByte_congr (e : Endian) {n v w k : Nat} (hk : k < n) (h : v % 256 ^ n = w % 256 ^ n) :
    Expected.hostByte e n v k = Expected.hostByte e n w k := by
  have hbyte {j : Nat} (hj : j < n) : BitVec.ofNat 8 (v / 256 ^ j) = BitVec.ofNat 8 (w / 256 ^ j) := by
    have hpow : 256 ^ n = 256 ^ j * 256 ^ (n - j) := by rw [← Nat.pow_add, Nat.add_sub_cancel' (Nat.le_of_lt hj)]
    have hdvd : 256 ∣ 256 ^ (n - j) := dvd_pow_self 256 (by omega)
    have hmod (x : Nat) : x / 256 ^ j % 256 = x % 256 ^ n / 256 ^ j % 256 := by
      rw [hpow, Nat.mod_mul_right_div_self, Nat.mod_mod_of_dvd _ hdvd]
    apply BitVec.eq_of_toNat_eq
    rw [BitVec.toNat_ofNat, BitVec.toNat_ofNat]
    exact (hmod v).trans (h ▸ (hmod w).symm)
  cases e with
  | little => exact hbyte hk
  | big => exact hbyte (by omega)

theorem storedOnly_congr {e : Endian} {m m' : Memory} {addr : Word} {n v w : Nat} (hmod : v % 256 ^ n = w % 256 ^ n)
    (h : Expected.storedOnly e m m' addr n v) : Expected.storedOnly e m m' addr n w :=
  ⟨fun k hk => (h.1 k hk).trans (congrArg some (hostByte_congr e hk hmod)), h.2⟩

variable {s : State} {dst src : Reg} {off : BitVec 16} {imm : Word32} {addr base v : Word} {n : Nat}

/-- What a store leaves in memory. -/
theorem store_storedOnly (s : State) (addr : Word) (n : Nat) (v : Word) :
    Expected.storedOnly s.params.hostEndian s.mem (s.store addr n v).mem addr n v.toNat := by
  constructor
  · intro k hk
    rw [State.store_mem, Memory.read_writeBytes, layOut_length, if_pos (by omega), Nat.add_sub_cancel_left]
    exact layOut_getElem? _ v hk
  · intro a ha
    by_contra hne
    obtain ⟨hlo, hhi⟩ := State.store_changes hne
    omega

/-! ### Effective addresses -/

/-- Settles O37. -/
theorem effectiveAddressWraps : Obligations.EffectiveAddressWraps := by
  intro base off
  rw [BitVec.ofInt_add, BitVec.ofInt_natCast, BitVec.ofNat_toNat, BitVec.setWidth_eq]
  rfl

/-! ### Loads -/

/-- A read that is admitted and finds a value in every byte goes on with their number. -/
theorem State.readMem_of_holds {kind : AccessKind} {bs : List Byte} (k : Word → StepResult) (hn : n = bs.length)
    (hbytes : Expected.holds s.mem addr bs) (hadmit : s.admits addr bs.length kind = true) :
    s.readMem addr n kind k = k (BitVec.ofNat 64 (Expected.hostNumber s.params.hostEndian bs)) := by
  subst hn
  rw [State.readMem_of_some s addr _ kind k bs hadmit ((Memory.readBytes_eq_some _ _ _ _).mpr ⟨rfl, hbytes⟩), assemble_eq]

theorem loadForm_of_holds {f : Word → Word} {bs : List Byte} (hn : n = bs.length) (hb : s.reg src = some base)
    (hbytes : Expected.holds s.mem (effectiveAddr base off) bs)
    (hadmit : s.admits (effectiveAddr base off) bs.length .read = true) :
    loadForm n f dst src off s =
      s.writeNext dst (f (BitVec.ofNat 64 (Expected.hostNumber s.params.hostEndian bs))) :=
  (State.withReg_of_some _ _ _ _ hb).trans (State.readMem_of_holds _ hn hbytes hadmit)

/-- Settles O38. -/
theorem zeroExtendingLoadResults : Obligations.ZeroExtendingLoadResults := by
  intro s dst src off base bs hb hbytes hadmit
  simp only [List.forall_mem_cons]
  exact ⟨fun hn => loadForm_of_holds hn hb hbytes hadmit, fun hn => loadForm_of_holds hn hb hbytes hadmit,
    fun hn => loadForm_of_holds hn hb hbytes hadmit, fun hn => loadForm_of_holds hn hb hbytes hadmit,
    List.forall_mem_nil _⟩

/-- A number of `n` bytes, sign-extended from them (rule R342). -/
theorem signExtendLow_ofNat {N : Nat} (hn : n ≤ 8) (hN : N < 256 ^ n) :
    signExtendLow (8 * n) 64 (BitVec.ofNat 64 N) =
      BitVec.ofInt 64 (if 256 ^ n ≤ 2 * N then (N : Int) - 256 ^ n else N) := by
  have hpow : 256 ^ n = 2 ^ (8 * n) := by rw [Nat.pow_mul]
  rw [hpow] at hN
  have hcast : (256 : Int) ^ n = ((2 ^ (8 * n) : Nat) : Int) := by rw [← hpow]; push_cast; rfl
  rw [hcast, hpow, signExtendLow, BitVec.setWidth_ofNat_of_le (by omega), BitVec.signExtend,
    BitVec.toInt_eq_toNat_cond, BitVec.toNat_ofNat, Nat.mod_eq_of_lt hN]
  congr 1
  split_ifs <;> omega

theorem loadForm_signed_of_holds {bs : List Byte} (hn : n = bs.length) (h8 : n ≤ 8) (hb : s.reg src = some base)
    (hbytes : Expected.holds s.mem (effectiveAddr base off) bs)
    (hadmit : s.admits (effectiveAddr base off) bs.length .read = true) :
    loadForm n (signExtendLow (8 * n) 64) dst src off s = s.writeNext dst (BitVec.ofInt 64
      (if 256 ^ bs.length ≤ 2 * Expected.hostNumber s.params.hostEndian bs
        then (Expected.hostNumber s.params.hostEndian bs : Int) - 256 ^ bs.length
        else Expected.hostNumber s.params.hostEndian bs)) := by
  rw [loadForm_of_holds hn hb hbytes hadmit, signExtendLow_ofNat h8 (hn ▸ hostNumber_lt _ bs), hn]

/-- Settles O39. -/
theorem signExtendingLoadResults : Obligations.SignExtendingLoadResults := by
  intro s dst src off base bs hb hbytes hadmit
  simp only [List.forall_mem_cons]
  exact ⟨fun hn => loadForm_signed_of_holds hn (by decide) hb hbytes hadmit,
    fun hn => loadForm_signed_of_holds hn (by decide) hb hbytes hadmit,
    fun hn => loadForm_signed_of_holds hn (by decide) hb hbytes hadmit, List.forall_mem_nil _⟩

/-! ### Stores -/

theorem storeImm_of_admitted (hb : s.reg dst = some base) (hadmit : s.admits (effectiveAddr base off) n .write = true) :
    storeImm n dst off imm s = .next ((s.store (effectiveAddr base off) n (sext64 imm)).advance 1) :=
  (State.withReg_of_some _ _ _ _ hb).trans (State.writeMem_of_admitted _ _ _ _ _ hadmit)

theorem storeReg_of_admitted (hb : s.reg dst = some base) (hv : s.reg src = some v)
    (hadmit : s.admits (effectiveAddr base off) n .write = true) :
    storeReg n dst src off s = .next ((s.store (effectiveAddr base off) n v).advance 1) :=
  (State.withReg_of_some _ _ _ _ hb).trans
    ((State.withReg_of_some _ _ _ _ hv).trans (State.writeMem_of_admitted _ _ _ _ _ hadmit))

/-- An answer that only stores the low `n` bytes of a value and goes on. -/
theorem stores_only {r : StepResult} (h : r = .next ((s.store addr n v).advance 1)) :
    ∃ m : Memory, r = .next { s with mem := m, pc := s.pc + 1 } ∧
      Expected.storedOnly s.params.hostEndian s.mem m addr n v.toNat :=
  ⟨_, h, store_storedOnly s addr n v⟩

/-- Settles O40. -/
theorem storeResults : Obligations.StoreResults := by
  intro s dst src off imm base v hb hv
  simp only [List.forall_mem_cons]
  exact ⟨fun h => stores_only (storeImm_of_admitted hb h), fun h => stores_only (storeImm_of_admitted hb h),
    fun h => stores_only (storeImm_of_admitted hb h), fun h => stores_only (storeImm_of_admitted hb h),
    fun h => stores_only (storeReg_of_admitted hb hv h), fun h => stores_only (storeReg_of_admitted hb hv h),
    fun h => stores_only (storeReg_of_admitted hb hv h), fun h => stores_only (storeReg_of_admitted hb hv h),
    List.forall_mem_nil _⟩

/-! ### A load inside a stored double word (rules R61 to R63) -/

theorem drop_natToBytes (m w k : Nat) : (natToBytes m w).drop k = natToBytes (m - k) (w / 256 ^ k) := by
  induction k generalizing m w with
  | zero => simp
  | succ k ih =>
    cases m with
    | zero => simp [natToBytes]
    | succ m => rw [natToBytes, List.drop_succ_cons, ih, Nat.succ_sub_succ, Nat.div_div_eq_div_mul, Nat.pow_succ']

theorem take_natToBytes {m k : Nat} (w : Nat) (hk : k ≤ m) : (natToBytes m w).take k = natToBytes k w := by
  induction k generalizing m w with
  | zero => rfl
  | succ k ih =>
    obtain ⟨m, rfl⟩ := Nat.exists_eq_succ_of_ne_zero (by omega : m ≠ 0)
    rw [natToBytes, List.take_succ_cons, ih _ (by omega), natToBytes]

/-- The `n` bytes from byte `k` of a stored value on are those of the value divided by the power of 256 of the bytes below
them, which stand before them on a little-endian host and after them on a big-endian one. -/
theorem hostNumber_layOut_slice (e : Endian) {m k : Nat} (v : Word) (h : k + n ≤ m) :
    Expected.hostNumber e (((layOut e m v).drop k).take n) =
      v.toNat / 256 ^ (if e = .little then k else m - k - n) % 256 ^ n := by
  rw [hostNumber_eq]
  cases e with
  | little =>
    simp only [hostOrder, layOut, if_true]
    rw [drop_natToBytes, take_natToBytes _ (by omega), bytesToNat_natToBytes]
  | big =>
    have hne : ¬Endian.big = .little := nofun
    simp only [hostOrder, layOut, if_neg hne]
    rw [List.drop_reverse, List.take_reverse, List.reverse_reverse, natToBytes_length, take_natToBytes _ (by omega),
      natToBytes_length, drop_natToBytes, bytesToNat_natToBytes]
    congr 2
    omega

/-- What a stored value leaves in memory, from byte `k` on. -/
theorem holds_store_slice {m k : Nat} {addr' : Word} (h : k + n ≤ m) (ha : addr'.toNat = addr.toNat + k) :
    Expected.holds (s.store addr m v).mem addr' (((layOut s.params.hostEndian m v).drop k).take n) := by
  intro j hj
  have hlen : (layOut s.params.hostEndian m v).length = m := layOut_length _ _ _
  have hj' : j < n := by
    rw [List.length_take] at hj
    omega
  rw [State.store_mem, Memory.read_writeBytes, hlen, if_pos (by omega), List.getElem?_take_of_lt hj', List.getElem?_drop]
  congr 1
  omega

/-- Settles O41. -/
theorem storeThenLoadSeesTheBytes : Obligations.StoreThenLoadSeesTheBytes := by
  intro s r dst src off off' base v k hb hv haddr hstore p hp hk hload
  refine ⟨_, storeReg_of_admitted hb hv hstore, ?_⟩
  have hlen : (((layOut s.params.hostEndian 8 v).drop k).take p.2).length = p.2 := by
    simp only [List.length_take, List.length_drop, layOut_length]
    omega
  have hexec : exec p.1 ((s.store (effectiveAddr base off) 8 v).advance 1) =
      loadForm p.2 (fun v => v) r dst off' ((s.store (effectiveAddr base off) 8 v).advance 1) := by
    revert p
    simp only [List.forall_mem_cons]
    exact ⟨fun _ _ _ => rfl, fun _ _ _ => rfl, fun _ _ _ => rfl, fun _ _ _ => rfl, List.forall_mem_nil _⟩
  rw [← hostNumber_layOut_slice _ v hk]
  exact hexec.trans (loadForm_of_holds (s := (s.store (effectiveAddr base off) 8 v).advance 1) hlen.symm hb
    (holds_store_slice hk haddr) (hlen.symm ▸ hload))

/-! ### Atomic operations (rules R370 to R381) -/

section atomic

variable {bs : List Byte}

/-- On values of `n` bytes, the operation is `g` on numbers, as far as `n` bytes can say (rules R374, R378). -/
def OnBytes (n : Nat) (f : Word → Word → Word) (g : Nat → Nat → Nat) : Prop :=
  ∀ x v : Word, x.toNat < 256 ^ n → (f x v).toNat % 256 ^ n = g x.toNat (v.toNat % 256 ^ n) % 256 ^ n

/-- An operation that is `g` on numbers at every width is `g` on the low halves, and on whole registers. -/
theorem onBytes_of_toNat {f : ∀ n : Nat, BitVec n → BitVec n → BitVec n} {g : Nat → Nat → Nat}
    (hg : ∀ n (x y : BitVec n), (f n x y).toNat = g x.toNat y.toNat % 2 ^ n) :
    OnBytes 4 (on32 (f 32)) g ∧ OnBytes 8 (f 64) g := by
  constructor
  · intro x v hx
    have hlow : (low32 x).toNat = x.toNat := by
      rw [low32, BitVec.toNat_setWidth]
      exact Nat.mod_eq_of_lt hx
    have hzext : (on32 (f 32) x v).toNat = (f 32 (low32 x) (low32 v)).toNat := by
      rw [on32, zext64, BitVec.toNat_setWidth]
      exact Nat.mod_eq_of_lt ((BitVec.isLt _).trans (by decide))
    rw [hzext, hg, hlow, low32, BitVec.toNat_setWidth]
    exact Nat.mod_mod _ _
  · intro x v _
    have hv : v.toNat % 256 ^ 8 = v.toNat := Nat.mod_eq_of_lt v.isLt
    rw [hg, hv]
    exact Nat.mod_mod _ _

theorem onBytes_add : OnBytes 4 (on32 opAdd) (· + ·) ∧ OnBytes 8 opAdd (· + ·) :=
  onBytes_of_toNat (f := @opAdd) fun _ x y => BitVec.toNat_add x y

theorem onBytes_or : OnBytes 4 (on32 opOr) (· ||| ·) ∧ OnBytes 8 opOr (· ||| ·) :=
  onBytes_of_toNat (f := @opOr) fun _ x y => by
    rw [Nat.mod_eq_of_lt (Nat.or_lt_two_pow x.isLt y.isLt)]
    exact BitVec.toNat_or x y

theorem onBytes_and : OnBytes 4 (on32 opAnd) (· &&& ·) ∧ OnBytes 8 opAnd (· &&& ·) :=
  onBytes_of_toNat (f := @opAnd) fun _ x y => by
    rw [Nat.mod_eq_of_lt (Nat.and_lt_two_pow _ y.isLt)]
    exact BitVec.toNat_and x y

theorem onBytes_xor : OnBytes 4 (on32 opXor) (· ^^^ ·) ∧ OnBytes 8 opXor (· ^^^ ·) :=
  onBytes_of_toNat (f := @opXor) fun _ x y => by
    rw [Nat.mod_eq_of_lt (Nat.xor_lt_two_pow x.isLt y.isLt)]
    exact BitVec.toNat_xor x y

/-- `XCHG` stores the source (rule R376). -/
theorem onBytes_xchg (n : Nat) : OnBytes n (fun _ v => v) (fun _ y => y) := fun _ _ _ => (Nat.mod_mod _ _).symm

/-- The number that the bytes stood for, as a register holds it. -/
theorem toNat_ofNat_hostNumber (e : Endian) (h8 : bs.length ≤ 8) :
    (BitVec.ofNat 64 (Expected.hostNumber e bs)).toNat = Expected.hostNumber e bs := by
  have hpow : 256 ^ bs.length ≤ 256 ^ 8 := Nat.pow_le_pow_right (by decide) h8
  exact (BitVec.toNat_ofNat _ _).trans (Nat.mod_eq_of_lt ((hostNumber_lt e bs).trans_le hpow))

/-- What an atomic operation leaves in memory. -/
theorem atomic_storedOnly {f : Word → Word → Word} {g : Nat → Nat → Nat} (hf : OnBytes n f g) (hn : n = bs.length)
    (h8 : n ≤ 8) : Expected.storedOnly s.params.hostEndian s.mem
      (s.store addr n (f (BitVec.ofNat 64 (Expected.hostNumber s.params.hostEndian bs)) v)).mem addr n
      (g (Expected.hostNumber s.params.hostEndian bs) (v.toNat % 256 ^ n) % 256 ^ n) := by
  have hold := toNat_ofNat_hostNumber s.params.hostEndian (hn ▸ h8)
  have hlt : Expected.hostNumber s.params.hostEndian bs < 256 ^ n := hn ▸ hostNumber_lt _ bs
  refine storedOnly_congr ?_ (store_storedOnly s addr n _)
  rw [hf _ v (hold.symm ▸ hlt), hold, Nat.mod_mod]

variable {f : Word → Option Word} {k : Word → State → StepResult} {old : Word}

/-- `AtomicRMW` on admitted bytes, where the operation gives a new value. -/
theorem State.atomicRmw_of_some (hn : n = bs.length) (hbytes : Expected.holds s.mem addr bs)
    (hadmit : s.admits addr bs.length .atomic = true)
    (hf : f (BitVec.ofNat 64 (Expected.hostNumber s.params.hostEndian bs)) = some v) :
    s.atomicRmw addr n f k = k (BitVec.ofNat 64 (Expected.hostNumber s.params.hostEndian bs)) (s.store addr n v) := by
  rw [State.atomicRmw, State.readMem_of_holds _ hn hbytes hadmit, hf]

/-- `AtomicRMW` on admitted bytes, where the operation leaves memory as it is. -/
theorem State.atomicRmw_of_none (hn : n = bs.length) (hbytes : Expected.holds s.mem addr bs)
    (hadmit : s.admits addr bs.length .atomic = true)
    (hf : f (BitVec.ofNat 64 (Expected.hostNumber s.params.hostEndian bs)) = none) :
    s.atomicRmw addr n f k = k (BitVec.ofNat 64 (Expected.hostNumber s.params.hostEndian bs)) s := by
  rw [State.atomicRmw, State.readMem_of_holds _ hn hbytes hadmit, hf]

theorem atomicForm_eq_atomicRmw {f : Word → Word → Word} (hb : s.reg dst = some base) (hv : s.reg src = some v) :
    atomicForm n f dst src off s =
      s.atomicRmw (effectiveAddr base off) n (fun old => some (f old v)) fun _ t => .next (t.advance 1) :=
  (State.withReg_of_some _ _ _ _ hb).trans (State.withReg_of_some _ _ _ _ hv)

theorem atomicFetchForm_eq_atomicRmw {f : Word → Word → Word} (hb : s.reg dst = some base) (hv : s.reg src = some v) :
    atomicFetchForm n f dst src off s =
      s.atomicRmw (effectiveAddr base off) n (fun old => some (f old v)) fun old t => t.writeNext src old :=
  (State.withReg_of_some _ _ _ _ hb).trans (State.withReg_of_some _ _ _ _ hv)

theorem cmpxchgForm_eq_atomicRmw {eq : Word → Word → Bool} {e : Word} (hb : s.reg dst = some base)
    (hv : s.reg src = some v) (he : s.reg .r0 = some e) :
    cmpxchgForm n eq dst src off s = s.atomicRmw (effectiveAddr base off) n
      (fun old => if eq old e then some v else none) fun old t => t.writeNext .r0 old :=
  (State.withReg_of_some _ _ _ _ hb).trans ((State.withReg_of_some _ _ _ _ hv).trans (State.withReg_of_some _ _ _ _ he))

/-- `CMPXCHG` where `eq` compares a number of `n` bytes with the low bytes of R0 (rule R377). -/
theorem cmpxchgForm_of_holds {eq : Word → Word → Bool} {e : Word} (hb : s.reg dst = some base) (hv : s.reg src = some v)
    (he : s.reg .r0 = some e) (hbytes : Expected.holds s.mem (effectiveAddr base off) bs)
    (hadmit : s.admits (effectiveAddr base off) bs.length .atomic = true) (h8 : n ≤ 8)
    (heq : ∀ x : Word, x.toNat < 256 ^ n → (eq x e = true ↔ x.toNat = e.toNat % 256 ^ n)) (hn : n = bs.length) :
    ∃ m : Memory, cmpxchgForm n eq dst src off s = .next { s with
        regs := s.regs.set .r0 (some (BitVec.ofNat 64 (Expected.hostNumber s.params.hostEndian bs)))
        mem := m, pc := s.pc + 1 } ∧
      if Expected.hostNumber s.params.hostEndian bs = e.toNat % 256 ^ n then
        Expected.storedOnly s.params.hostEndian s.mem m (effectiveAddr base off) n (v.toNat % 256 ^ n)
      else m = s.mem := by
  have hold := toNat_ofNat_hostNumber s.params.hostEndian (hn ▸ h8)
  have hlt : Expected.hostNumber s.params.hostEndian bs < 256 ^ n := hn ▸ hostNumber_lt _ bs
  have hcompare := heq (BitVec.ofNat 64 (Expected.hostNumber s.params.hostEndian bs)) (hold.symm ▸ hlt)
  rw [hold] at hcompare
  by_cases hsame : Expected.hostNumber s.params.hostEndian bs = e.toNat % 256 ^ n
  · refine ⟨_, (cmpxchgForm_eq_atomicRmw hb hv he).trans
      (State.atomicRmw_of_some hn hbytes hadmit (if_pos (hcompare.mpr hsame))), ?_⟩
    rw [if_pos hsame]
    exact storedOnly_congr (Nat.mod_mod _ _).symm (store_storedOnly s _ n v)
  · exact ⟨s.mem, (cmpxchgForm_eq_atomicRmw hb hv he).trans
      (State.atomicRmw_of_none hn hbytes hadmit (if_neg (mt hcompare.mp hsame))), (if_neg hsame).mpr rfl⟩

end atomic

/-- Settles O42. -/
theorem simpleAtomicResults : Obligations.SimpleAtomicResults := by
  intro s dst src off base v bs hb hv hbytes hadmit
  have hatomic {n : Nat} {f : Word → Word → Word} {g : Nat → Nat → Nat} (hf : OnBytes n f g) (h8 : n ≤ 8)
      (hn : n = bs.length) : ∃ m : Memory, atomicForm n f dst src off s = .next { s with mem := m, pc := s.pc + 1 } ∧
        Expected.storedOnly s.params.hostEndian s.mem m (effectiveAddr base off) n
          (g (Expected.hostNumber s.params.hostEndian bs) (v.toNat % 256 ^ n) % 256 ^ n) :=
    ⟨_, (atomicForm_eq_atomicRmw hb hv).trans (State.atomicRmw_of_some hn hbytes hadmit rfl), atomic_storedOnly hf hn h8⟩
  simp only [List.forall_mem_cons]
  exact ⟨hatomic onBytes_add.1 (by decide), hatomic onBytes_add.2 (by decide), hatomic onBytes_or.1 (by decide),
    hatomic onBytes_or.2 (by decide), hatomic onBytes_and.1 (by decide), hatomic onBytes_and.2 (by decide),
    hatomic onBytes_xor.1 (by decide), hatomic onBytes_xor.2 (by decide), List.forall_mem_nil _⟩

/-- Settles O43: as O42, and the old value goes to the source register. -/
theorem fetchingAtomicResults : Obligations.FetchingAtomicResults := by
  intro s dst src off base v bs hb hv hbytes hadmit
  have hfetch {n : Nat} {f : Word → Word → Word} {g : Nat → Nat → Nat} (hf : OnBytes n f g) (h8 : n ≤ 8)
      (hn : n = bs.length) : ∃ m : Memory, atomicFetchForm n f dst src off s = .next { s with
          regs := s.regs.set src (some (BitVec.ofNat 64 (Expected.hostNumber s.params.hostEndian bs)))
          mem := m, pc := s.pc + 1 } ∧
        Expected.storedOnly s.params.hostEndian s.mem m (effectiveAddr base off) n
          (g (Expected.hostNumber s.params.hostEndian bs) (v.toNat % 256 ^ n) % 256 ^ n) :=
    ⟨_, (atomicFetchForm_eq_atomicRmw hb hv).trans (State.atomicRmw_of_some hn hbytes hadmit rfl),
      atomic_storedOnly hf hn h8⟩
  simp only [List.forall_mem_cons]
  exact ⟨hfetch onBytes_add.1 (by decide), hfetch onBytes_add.2 (by decide), hfetch onBytes_or.1 (by decide),
    hfetch onBytes_or.2 (by decide), hfetch onBytes_and.1 (by decide), hfetch onBytes_and.2 (by decide),
    hfetch onBytes_xor.1 (by decide), hfetch onBytes_xor.2 (by decide), hfetch (onBytes_xchg 4) (by decide),
    hfetch (onBytes_xchg 8) (by decide), List.forall_mem_nil _⟩

/-- Settles O44: the comparison is of the old number with the low bytes of R0. -/
theorem compareExchangeResults : Obligations.CompareExchangeResults := by
  intro s dst src off base v bs hb hv hbytes hadmit e he
  simp only [List.forall_mem_cons]
  refine ⟨cmpxchgForm_of_holds hb hv he hbytes hadmit (by decide) fun x hx => ?_,
    cmpxchgForm_of_holds hb hv he hbytes hadmit (by decide) fun x hx => ?_, List.forall_mem_nil _⟩
  · rw [beq_iff_eq, ← BitVec.toNat_inj, low32, low32, BitVec.toNat_setWidth, BitVec.toNat_setWidth]
    exact Eq.congr_left (Nat.mod_eq_of_lt hx)
  · rw [beq_iff_eq, ← BitVec.toNat_inj]
    exact Eq.congr_right (Nat.mod_eq_of_lt e.isLt).symm

/-! ### Accesses that raise (rules R371, R458) -/

/-- A byte that holds no value, among those that are read. -/
theorem Memory.readBytes_eq_none {m : Memory} {x k : Nat} (hk : k < n) (h : m.read (x + k) = none) :
    m.readBytes x n = none := by
  by_contra hsome
  obtain ⟨bs, hbs⟩ := Option.ne_none_iff_exists'.mp hsome
  obtain ⟨hlen, hread⟩ := (Memory.readBytes_eq_some _ _ _ _).mp hbs
  have hbyte := hread k hk
  rw [h, List.getElem?_eq_getElem (by omega)] at hbyte
  cases hbyte

/-- An instruction that reads memory: what it raises when the access is refused, and when a byte holds no value. -/
theorem readMem_raises {kind : AccessKind} {r : StepResult} (h : ∃ k, r = s.readMem addr n kind k) :
    (s.admits addr n kind = false → r = .next { s with status := .faulted (.memoryAccessFault addr n kind) }) ∧
      ∀ j, j < n → s.admits addr n kind = true → s.mem.read (addr.toNat + j) = none →
        r = .next { s with status := .faulted (.uninitMemory addr) } := by
  obtain ⟨k, rfl⟩ := h
  exact ⟨State.readMem_of_refused s addr n kind k, fun j hj hadmit hnone =>
    State.readMem_of_none s addr n kind k hadmit (Memory.readBytes_eq_none hj hnone)⟩

/-- An instruction that writes memory: what it raises when the access is refused. -/
theorem writeMem_raises {r : StepResult} (h : ∃ v k, r = s.writeMem addr n v k) (hrefused : s.admits addr n .write = false) :
    r = .next { s with status := .faulted (.memoryAccessFault addr n .write) } := by
  obtain ⟨v, k, rfl⟩ := h
  exact State.writeMem_of_refused s addr n v k hrefused

theorem loadForm_reads {f : Word → Word} (hb : s.reg src = some base) :
    ∃ k, loadForm n f dst src off s = s.readMem (effectiveAddr base off) n .read k :=
  ⟨_, State.withReg_of_some _ _ _ _ hb⟩

theorem storeImm_writesMem (hb : s.reg dst = some base) :
    ∃ v k, storeImm n dst off imm s = s.writeMem (effectiveAddr base off) n v k :=
  ⟨_, _, State.withReg_of_some _ _ _ _ hb⟩

/-- The registers of a list hold values, as those of `Instr.reads` do before an access is made. -/
theorem forall_reads_iff {l : List Reg} : (∀ q ∈ l, s.reg q ≠ none) ↔ ∀ q ∈ l, ∃ v, s.reg q = some v := by
  simp only [Option.ne_none_iff_exists']

theorem storeReg_writesMem (hb : s.reg dst = some base) (h : ∀ q ∈ [dst, src], s.reg q ≠ none) :
    ∃ v k, storeReg n dst src off s = s.writeMem (effectiveAddr base off) n v k := by
  obtain ⟨v, hv⟩ := forall_reads_iff.mp h src (by simp)
  exact ⟨v, _, (State.withReg_of_some _ _ _ _ hb).trans (State.withReg_of_some _ _ _ _ hv)⟩

theorem atomicForm_reads {f : Word → Word → Word} (hb : s.reg dst = some base)
    (h : ∀ q ∈ [dst, src], s.reg q ≠ none) :
    ∃ k, atomicForm n f dst src off s = s.readMem (effectiveAddr base off) n .atomic k := by
  obtain ⟨v, hv⟩ := forall_reads_iff.mp h src (by simp)
  exact ⟨_, atomicForm_eq_atomicRmw hb hv⟩

theorem atomicFetchForm_reads {f : Word → Word → Word} (hb : s.reg dst = some base)
    (h : ∀ q ∈ [dst, src], s.reg q ≠ none) :
    ∃ k, atomicFetchForm n f dst src off s = s.readMem (effectiveAddr base off) n .atomic k := by
  obtain ⟨v, hv⟩ := forall_reads_iff.mp h src (by simp)
  exact ⟨_, atomicFetchForm_eq_atomicRmw hb hv⟩

theorem cmpxchgForm_reads {eq : Word → Word → Bool} (hb : s.reg dst = some base)
    (h : ∀ q ∈ [dst, src, .r0], s.reg q ≠ none) :
    ∃ l, cmpxchgForm n eq dst src off s = s.readMem (effectiveAddr base off) n .atomic l := by
  obtain ⟨v, hv⟩ := forall_reads_iff.mp h src (by simp)
  obtain ⟨e, he⟩ := forall_reads_iff.mp h .r0 (by simp)
  exact ⟨_, cmpxchgForm_eq_atomicRmw hb hv he⟩

/-- Settles O15: with its registers read, each instruction is one access to memory. -/
theorem dataAccessFaults : Obligations.DataAccessFaults := by
  refine fun s dst src off imm base => ⟨fun hb => ?loads, fun hb => ?stores, fun hb => ?atomics⟩
  case loads =>
    simp only [List.forall_mem_cons]
    exact ⟨readMem_raises (loadForm_reads hb), readMem_raises (loadForm_reads hb), readMem_raises (loadForm_reads hb),
      readMem_raises (loadForm_reads hb), readMem_raises (loadForm_reads hb), readMem_raises (loadForm_reads hb),
      readMem_raises (loadForm_reads hb), List.forall_mem_nil _⟩
  case stores =>
    simp only [List.forall_mem_cons]
    exact ⟨fun _ => writeMem_raises (storeImm_writesMem hb), fun _ => writeMem_raises (storeImm_writesMem hb),
      fun _ => writeMem_raises (storeImm_writesMem hb), fun _ => writeMem_raises (storeImm_writesMem hb),
      fun h => writeMem_raises (storeReg_writesMem hb h), fun h => writeMem_raises (storeReg_writesMem hb h),
      fun h => writeMem_raises (storeReg_writesMem hb h), fun h => writeMem_raises (storeReg_writesMem hb h),
      List.forall_mem_nil _⟩
  case atomics =>
    simp only [List.forall_mem_cons]
    exact ⟨fun h => readMem_raises (atomicForm_reads hb h), fun h => readMem_raises (atomicForm_reads hb h),
      fun h => readMem_raises (atomicForm_reads hb h), fun h => readMem_raises (atomicForm_reads hb h),
      fun h => readMem_raises (atomicForm_reads hb h), fun h => readMem_raises (atomicForm_reads hb h),
      fun h => readMem_raises (atomicForm_reads hb h), fun h => readMem_raises (atomicForm_reads hb h),
      fun h => readMem_raises (atomicFetchForm_reads hb h), fun h => readMem_raises (atomicFetchForm_reads hb h),
      fun h => readMem_raises (atomicFetchForm_reads hb h), fun h => readMem_raises (atomicFetchForm_reads hb h),
      fun h => readMem_raises (atomicFetchForm_reads hb h), fun h => readMem_raises (atomicFetchForm_reads hb h),
      fun h => readMem_raises (atomicFetchForm_reads hb h), fun h => readMem_raises (atomicFetchForm_reads hb h),
      fun h => readMem_raises (atomicFetchForm_reads hb h), fun h => readMem_raises (atomicFetchForm_reads hb h),
      fun h => readMem_raises (cmpxchgForm_reads hb h), fun h => readMem_raises (cmpxchgForm_reads hb h),
      List.forall_mem_nil _⟩

end Sys2Proof.Machine
end

section
/-!
SUPPORT. 64-bit immediates and legacy packet access (45_imm64.md, 46_legacy_packet.md).
-/

namespace Sys2Proof.Machine

variable {s : State} {dst src : Reg} {imm next : Word32} {n : Nat} {k : Int} {pkt : List Byte}

/-! ### 64-bit immediates -/

theorem State.writeWide_of_some {v : Word} {o : Option Word} (h : o = some v) :
    s.writeWide dst o = .next { s with regs := s.regs.set dst (some v), pc := s.pc + 2 } := by
  rw [h]
  rfl

theorem State.writeWide_of_none {o : Option Word} (h : o = none) :
    s.writeWide dst o = .next { s with status := .faulted (.platformUnsupported s.pc) } := by
  rw [h]
  rfl

/-- The address of a map value: the value region of the map, where there is one, and the offset above it (rule R413). -/
theorem mapValueAddr_eq (p : Params) (maps : List (Word32 × Word)) (id next : Word32) :
    mapValueAddr p maps id next = ((lookupTable maps id).bind (lookupTable p.mapVal)).map
      fun a => BitVec.ofNat 64 (a.toNat + next.toNat) := by
  have hsum (a : Word) : a + zext64 next = BitVec.ofNat 64 (a.toNat + next.toNat) := by
    rw [BitVec.ofNat_add, BitVec.ofNat_toNat, BitVec.setWidth_eq, BitVec.ofNat_toNat, zext64]
  cases hmap : lookupTable maps id with
  | none => simp only [mapValueAddr, hmap, Option.bind_none, Option.map_none]
  | some m =>
    cases hval : lookupTable p.mapVal m with
    | none => simp only [mapValueAddr, hmap, hval, Option.bind_some, Option.map_none]
    | some a => simp only [mapValueAddr, hmap, hval, Option.bind_some, Option.map_some, hsum]

/-- The two words of `LD_IMM64` as one number (rule R410). -/
theorem append_eq_ofNat (next imm : Word32) : next ++ imm = BitVec.ofNat 64 (next.toNat * 2 ^ 32 + imm.toNat) := by
  apply BitVec.eq_of_toNat_eq
  rw [BitVec.toNat_append, BitVec.toNat_ofNat, Nat.shiftLeft_eq, Nat.mul_comm, ← Nat.two_pow_add_eq_or_of_lt imm.isLt]
  omega

/-- Settles O48. -/
theorem wideImmediateResults : Obligations.WideImmediateResults := by
  intro s dst imm next v
  simp only [List.forall_mem_cons]
  exact ⟨fun h => State.writeWide_of_some ((congrArg some (append_eq_ofNat next imm)).trans h), State.writeWide_of_some,
    State.writeWide_of_some, State.writeWide_of_some, State.writeWide_of_some,
    fun h => State.writeWide_of_some ((mapValueAddr_eq _ _ _ _).trans h),
    fun h => State.writeWide_of_some ((mapValueAddr_eq _ _ _ _).trans h), List.forall_mem_nil _⟩

/-! ### Legacy packet access -/

theorem packetAbs_of_unsupported (h : s.params.packet = .unsupported) :
    packetAbs n imm s = .next { s with status := .faulted (.platformUnsupported s.pc) } := by
  simp only [packetAbs, h, State.raise]

theorem packetInd_of_unsupported (h : s.params.packet = .unsupported) :
    packetInd n src imm s = .next { s with status := .faulted (.platformUnsupported s.pc) } := by
  simp only [packetInd, h, State.raise]

/-- Settles O19. -/
theorem platformFaults : Obligations.PlatformFaults := by
  refine fun s dst src imm next => ⟨?immediates, fun h => ?packets⟩
  case immediates =>
    have hmapValue (maps : List (Word32 × Word))
        (h : (lookupTable maps imm).bind (lookupTable s.params.mapVal) = none) :
        mapValueAddr s.params maps imm next = none := by
      rw [mapValueAddr_eq, h, Option.map_none]
    simp only [List.forall_mem_cons]
    exact ⟨State.writeWide_of_none, State.writeWide_of_none, State.writeWide_of_none, State.writeWide_of_none,
      fun h => State.writeWide_of_none (hmapValue _ h), fun h => State.writeWide_of_none (hmapValue _ h),
      List.forall_mem_nil _⟩
  case packets =>
    simp only [List.forall_mem_cons]
    exact ⟨packetAbs_of_unsupported h, packetAbs_of_unsupported h, packetAbs_of_unsupported h,
      packetInd_of_unsupported h, packetInd_of_unsupported h, packetInd_of_unsupported h, List.forall_mem_nil _⟩

/-- An answer of a packet load of `n` bytes at the offset `k`: the bytes in network order, where they are in the packet, and
the end of the run, where one is not (rules R432, R434). -/
theorem packetLoad_answers {r : StepResult} (h : r = s.packetLoad pkt n k) :
    (∀ l bs rest : List Byte, pkt = l ++ bs ++ rest → k = l.length → bs.length = n →
      r = .next { s with
        regs := { s.regs with
          r0 := some (BitVec.ofNat 64 (Expected.hostNumber .big bs))
          r1 := none
          r2 := none
          r3 := none
          r4 := none
          r5 := none }
        pc := s.pc + 1 }) ∧
      (k < 0 ∨ pkt.length < k + n → r = .next { s with status := .halted 0 }) := by
  subst h
  constructor
  · intro l bs rest hpkt hk hn
    have hinside : ¬(k < 0 ∨ (pkt.length : Int) < k + n) := by
      simp only [hpkt, List.length_append]
      omega
    have hbytes : (pkt.drop k.toNat).take n = bs := by
      rw [hpkt, hk, Int.toNat_natCast, List.append_assoc, List.drop_left, ← hn, List.take_left]
    rw [State.packetLoad, if_neg hinside, hbytes, networkOrder, hostNumber_eq]
    rfl
  · intro houtside
    rw [State.packetLoad, if_pos houtside, State.halt]

/-- Settles O49. -/
theorem packetLoadResults : Obligations.PacketLoadResults := by
  intro s pkt src imm v c hpacket hv hc
  have habs (n : Nat) : packetAbs n imm s = s.packetLoad pkt n imm.toInt :=
    (packetAbs_of_linux hpacket).trans (State.withReg_of_some _ _ _ _ hc)
  have hind (n : Nat) : packetInd n src imm s = s.packetLoad pkt n ((v.toInt + imm.toInt).bmod (2 ^ 32)) := by
    rw [← low32_add_toInt]
    exact (packetInd_of_linux hpacket).trans
      ((State.withReg_of_some _ _ _ _ hv).trans (State.withReg_of_some _ _ _ _ hc))
  simp only [List.forall_mem_cons]
  exact ⟨packetLoad_answers (habs 4), packetLoad_answers (habs 2), packetLoad_answers (habs 1),
    packetLoad_answers (hind 4), packetLoad_answers (hind 2), packetLoad_answers (hind 1), List.forall_mem_nil _⟩

end Sys2Proof.Machine
end
